-- ==== Sys2Proof/Word.lean ====
section
/-! DEFINITION. The words of the block and the operands of its events: a byte (R14), the four bytes of a masking key (R40),
and the event alphabet of 00_scope R19. -/

namespace Sys2Proof

/-- A byte, 8 bits, unsigned (R14); bit 0 is the least significant (R15). -/
abbrev Byte := BitVec 8

/-- Four masking-key bytes in stream order: `k0` is the first received (R40, R77). -/
structure Key where
  k0 : Byte
  k1 : Byte
  k2 : Byte
  k3 : Byte
  deriving DecidableEq, Repr

/-- The events delivered to the decoder unit (R19). -/
inductive DecEvent where
  /-- `DecInvoke`: start decoding one frame. -/
  | invoke
  /-- `RxByte(b)`: the transport supplies the next inbound byte. -/
  | rxByte (b : Byte)
  /-- `RxFail`: the transport cannot supply the requested byte. -/
  | rxFail
  /-- `DecCheck`: the decoder's own internal step. -/
  | check
  deriving DecidableEq, Repr

/-- The events delivered to the encoder unit (R19). The length `n` is the number on the `N_WIDTH`-bit input (log entry 9). -/
inductive EncEvent where
  /-- `EncInvoke(n)`: start encoding one message of `n` payload bytes. -/
  | invoke (n : Nat)
  /-- `PlByte(b)`: the next payload byte of the outbound message. -/
  | plByte (b : Byte)
  deriving DecidableEq, Repr

/-- The events of R19. A read index is the value on its address port: 16 bits for the decoder (R32), 17 for the encoder (R33). -/
inductive Event where
  | reset
  | dec (e : DecEvent)
  | enc (e : EncEvent)
  | decRead (i : BitVec 16)
  | encRead (i : BitVec 17)
  deriving DecidableEq, Repr

end Sys2Proof
end

