-- ==== Sys2Proof/Config.lean ====
section
/-! DEFINITION. What an implementation fixes: the constants of R12 and R35, the parameters of R6 to R11, and the values the
spec leaves open, which are opaque constants without a body. -/

namespace Sys2Proof.Config

/-- `FIN_BIT` (R35). -/
def finBit : Byte := 0x80
/-- `OPC_TEXT` (R35). -/
def opcText : Byte := 0x01
/-- `SF_BYTE0` = `FIN_BIT OR OPC_TEXT` (R35, R121). -/
def sfByte0 : Byte := finBit ||| opcText
/-- `MASK_BIT` (R35). -/
@[simp] abbrev maskBit : Nat := 128
/-- `MARK_INLINE_MAX` (R35). -/
@[simp] abbrev markInlineMax : Nat := 125
/-- `MARK_EXT16` (R35). -/
@[simp] abbrev markExt16 : Nat := 126
/-- `MARK_EXT64` (R35). -/
@[simp] abbrev markExt64 : Nat := 127
/-- `KEY_LEN` (R35, R12). -/
@[simp] abbrev keyLen : Nat := 4
/-- `DEC_CAP` (R8): the capacity of `DEC_BUF`. -/
@[simp] abbrev decCap : Nat := 65535
/-- `N_WIDTH` (R7) at its default. It bounds the lengths of well-formed instructions only; every meaning is defined on every
natural number `n`, so that it is the meaning under any admitted `N_WIDTH` (log entry 9). DESIGN CHOICE. -/
@[simp] abbrev nWidth : Nat := 32

/-- The two admitted values of `ENC_MAX_N` (R6). -/
inductive EncMax where
  | n65536
  | n65535
  deriving DecidableEq, Repr

/-- `ENC_MAX_N` as a number (R6). -/
def EncMax.val : EncMax → Nat
  | .n65536 => 65536
  | .n65535 => 65535

/-- `ENC_CAP` = 4 + `ENC_MAX_N` (R9): the capacity of `ENC_BUF`. -/
def encCap (m : EncMax) : Nat := 4 + m.val

/-- Which `Utf8Valid` the instance has (R10): the default table of R211, or any other admitted predicate. -/
inductive TextRule where
  | standard
  | other
  deriving DecidableEq, Repr

/-- The open parameters of the model that a step depends on (R6, R10); `UNMASKED_POLICY` has one admitted value (R11) and
`N_WIDTH` is `nWidth`. -/
structure Params where
  encMax : EncMax
  text   : TextRule
  deriving DecidableEq, Repr

/-- The defaults of R6 and R10. -/
def Params.default : Params := { encMax := .n65536, text := .standard }

/-- FREE VALUE. The `k`-th value of `w` bits that the decoder unit holds or shows where the spec says "no value" or "an
unspecified byte" (R21, R58, U6, U7; log entries 2 and 6). Nothing is known of it. -/
opaque decFree : (w : Nat) → Nat → BitVec w

/-- FREE VALUE. The same for the encoder unit. -/
opaque encFree : (w : Nat) → Nat → BitVec w

/-- FREE VALUE. What a byte of `DEC_BUF` that nothing has written reads as inside the decoder, by index (R58; log entry 5). -/
opaque decUnwritten : Nat → Byte

/-- FREE VALUE. The same for `ENC_BUF`. -/
opaque encUnwritten : Nat → Byte

/-- FREE VALUE. `mark7` of a byte below 128, where the function is not defined (R142; log entry 15). -/
opaque mark7Below : Byte → BitVec 7

/-- FREE VALUE. An arbitrary text check: what `Utf8Valid` says of a non-empty sequence under a parameter other than the
default (R10, R214; log entry 7). -/
opaque otherText : List Byte → Bool

end Sys2Proof.Config
end

