-- ==== Sys2Proof/Machine/Operands.lean ====
section
/-! DEFINITION. The bit and byte utilities (40_bit_byte_utilities): every piece of arithmetic the two units use, as a pure function. -/

namespace Sys2Proof.Machine

/-- `maskbit(b) = b[7]`, equivalently `b ≥ 128` (R141). -/
def maskbit (b : Byte) : Bool := decide (Config.maskBit ≤ b.toNat)

/-- `mark7(b) = b - 128` for `b ≥ 128` (R142); below 128 the function is not defined and the result is a free value (entry 15). -/
def mark7 (b : Byte) : BitVec 7 :=
  if maskbit b then BitVec.ofNat 7 (b.toNat - Config.maskBit) else Config.mark7Below b

/-- `be16(hi, lo) = hi * 256 + lo` (R143). -/
def be16 (hi lo : Byte) : BitVec 16 := BitVec.ofNat 16 (hi.toNat * 256 + lo.toNat)

/-- `hi8(n) = (n / 256) mod 256` (R144). -/
def hi8 (n : Nat) : Byte := BitVec.ofNat 8 (n / 256)

/-- `lo8(n) = n mod 256` (R145). -/
def lo8 (n : Nat) : Byte := BitVec.ofNat 8 n

/-- Key byte `j mod 4` (R40, R146). -/
def keyByte (key : Key) (j : Nat) : Byte :=
  match j % 4 with
  | 0 => key.k0
  | 1 => key.k1
  | 2 => key.k2
  | _ => key.k3

/-- `DEC_KEY[j] <- b`, `j` taken mod 4 (R169). -/
def setKeyByte (key : Key) (j : Nat) (b : Byte) : Key :=
  match j % 4 with
  | 0 => { key with k0 := b }
  | 1 => { key with k1 := b }
  | 2 => { key with k2 := b }
  | _ => { key with k3 := b }

/-- `unmask1(m, key, i) = m XOR key[i mod 4]` (R146). -/
def unmask1 (m : Byte) (key : Key) (i : Nat) : Byte := m ^^^ keyByte key i

/-- `unmask` of a sequence whose first byte has index `i` in the payload. -/
def unmaskFrom (key : Key) (i : Nat) : List Byte → List Byte
  | [] => []
  | m :: q => unmask1 m key i :: unmaskFrom key (i + 1) q

/-- `unmask(key, q)[i] = unmask1(q[i], key, i)` (R146). -/
def unmask (key : Key) (q : List Byte) : List Byte := unmaskFrom key 0 q

/-- `isInline(m) = (m ≤ 125)` (R148). -/
def isInline (m : BitVec 7) : Bool := decide (m.toNat ≤ Config.markInlineMax)

/-- `isExt16(m) = (m == 126)` (R148). -/
def isExt16 (m : BitVec 7) : Bool := decide (m.toNat = Config.markExt16)

/-- `isExt64(m) = (m == 127)` (R148). -/
def isExt64 (m : BitVec 7) : Bool := decide (m.toNat = Config.markExt64)

/-- `fitsShort(n) = (n ≤ 125)` (R149). -/
def fitsShort (n : Nat) : Bool := decide (n ≤ Config.markInlineMax)

/-- `fitsExt16(n) = (n > 125 and n ≤ ENC_MAX_N)` (R149). -/
def fitsExt16 (max : Config.EncMax) (n : Nat) : Bool := decide (Config.markInlineMax < n ∧ n ≤ max.val)

/-- `tooLarge(n) = (n > ENC_MAX_N)` (R149). -/
def tooLarge (max : Config.EncMax) (n : Nat) : Bool := decide (max.val < n)

end Sys2Proof.Machine
end

