-- ==== Sys2Proof/Syntax.lean ====
section
/-! DEFINITION. The instructions: one constructor per row of opcode_table.json (30_encoding R130), in the table's order. -/

namespace Sys2Proof

/-- The rows of the opcode table. An operand named `b` is the byte the row's event supplies, `n` the length on the encoder's
input (a number, log entry 9), `m` a 7-bit marker. -/
inductive Instr where
  -- wire forms on a byte of a client frame (R101, R109)
  /-- CF.B0.ANY: header byte 0, any value. -/
  | cfB0Any (b : Byte)
  /-- CF.B1.UNMASKED: header byte 1 with mask bit 0 and low bits `m`. -/
  | cfB1Unmasked (m : BitVec 7)
  /-- CF.B1.SHORT: header byte 1 with mask bit 1 and marker `m`, 0 to 125. -/
  | cfB1Short (m : BitVec 7)
  /-- CF.B1.EXT16: header byte 1 = 0xFE. -/
  | cfB1Ext16
  /-- CF.B1.EXT64: header byte 1 = 0xFF. -/
  | cfB1Ext64
  -- wire forms on a length: headers of a server frame (R120)
  /-- SF.SHORT: the 2-byte header for `n`, 0 to 125. -/
  | sfShort (n : BitVec 7)
  /-- SF.EXT16: the 4-byte header for `n`, 126 to `ENC_MAX_N`. -/
  | sfExt16 (n : Nat)
  /-- SF.TOOLARGE: no header, `n` above `ENC_MAX_N`. -/
  | sfTooLarge (n : Nat)
  -- steps of the decoder (41_frame_decoder)
  | decInvoke
  | decB0 (b : Byte)
  | decB1Unmasked (b : Byte)
  | decB1 (b : Byte)
  | decB1Short (b : Byte)
  | decB1Ext16
  | decB1Ext64
  | decXh (b : Byte)
  | decXl (b : Byte)
  | decKey (b : Byte)
  | decPay (b : Byte)
  | decRxFail
  | decCheck
  /-- DEC.IGNORE: an event no other decoder row names in the present state. -/
  | decIgnore (e : DecEvent)
  | decRead (i : BitVec 16)
  -- steps of the encoder (42_frame_encoder)
  | encInvoke (n : Nat)
  | encShort (n : Nat)
  | encExt16 (n : Nat)
  | encTooLarge (n : Nat)
  | encPay (b : Byte)
  /-- ENC.IGNORE: an event no other encoder row names in the present state. -/
  | encIgnore (e : EncEvent)
  | encRead (i : BitVec 17)
  -- both units
  | reset
  -- pure functions (40_bit_byte_utilities, 43_text_check, R175, R197)
  | maskbit (b : Byte)
  | mark7 (b : Byte)
  | be16 (hi lo : Byte)
  | hi8 (n : Nat)
  | lo8 (n : Nat)
  | unmask1 (m : Byte) (key : Key) (i : Nat)
  | unmask (key : Key) (q : List Byte)
  | isInline (m : BitVec 7)
  | isExt16 (m : BitVec 7)
  | isExt64 (m : BitVec 7)
  | fitsShort (n : Nat)
  | fitsExt16 (n : Nat)
  | tooLarge (n : Nat)
  | utf8Valid (p : List Byte)
  /-- decode: the bytes the transport supplies, and whether it fails at their end (R175). -/
  | decodeFrame (s : List Byte) (fail : Bool)
  /-- encode: a payload (R197). -/
  | encodeMessage (p : List Byte)
  deriving DecidableEq, Repr

end Sys2Proof
end

