-- ==== Sys2Proof/WellFormed.lean ====
section
/-! DEFINITION. Which instructions are well formed: the operand ranges the spec gives each row. -/

namespace Sys2Proof

/-- A length that fits the `N_WIDTH`-bit input (R7). -/
def lengthFits (n : Nat) : Bool := decide (n < 2 ^ Config.nWidth)

/-- The operand ranges of each row: the byte ranges of R109, the length ranges of R120 at the largest admitted `ENC_MAX_N`,
the domains of R142, R144, R146 and R210. -/
def Instr.wf : Instr → Bool
  | .cfB0Any _ => true
  | .cfB1Unmasked _ => true
  | .cfB1Short m => decide (m.toNat ≤ 125)
  | .cfB1Ext16 => true
  | .cfB1Ext64 => true
  | .sfShort n => decide (n.toNat ≤ 125)
  | .sfExt16 n => decide (126 ≤ n ∧ n ≤ 65536)
  | .sfTooLarge n => decide (65535 < n) && lengthFits n
  | .decInvoke => true
  | .decB0 _ => true
  | .decB1Unmasked b => decide (b.toNat < 128)
  | .decB1 b => decide (128 ≤ b.toNat)
  | .decB1Short b => decide (128 ≤ b.toNat ∧ b.toNat ≤ 253)
  | .decB1Ext16 => true
  | .decB1Ext64 => true
  | .decXh _ => true
  | .decXl _ => true
  | .decKey _ => true
  | .decPay _ => true
  | .decRxFail => true
  | .decCheck => true
  | .decIgnore _ => true
  | .decRead _ => true
  | .encInvoke n => lengthFits n
  | .encShort n => decide (n ≤ 125)
  | .encExt16 n => decide (126 ≤ n ∧ n ≤ 65536)
  | .encTooLarge n => decide (65535 < n) && lengthFits n
  | .encPay _ => true
  | .encIgnore (.invoke n) => lengthFits n
  | .encIgnore (.plByte _) => true
  | .encRead _ => true
  | .reset => true
  | .maskbit _ => true
  | .mark7 b => decide (128 ≤ b.toNat)
  | .be16 _ _ => true
  | .hi8 n => lengthFits n
  | .lo8 n => lengthFits n
  | .unmask1 _ _ i => decide (i ≤ 65534)
  | .unmask _ q => decide (q.length ≤ 65535)
  | .isInline _ => true
  | .isExt16 _ => true
  | .isExt64 _ => true
  | .fitsShort n => lengthFits n
  | .fitsExt16 n => lengthFits n
  | .tooLarge n => lengthFits n
  | .utf8Valid p => decide (p.length ≤ 65535)
  | .decodeFrame _ _ => true
  | .encodeMessage p => lengthFits p.length

end Sys2Proof
end

