-- ==== Sys2Proof/Decode.lean ====
section
/-! DEFINITION. The wire decoder and encoder: from the bytes of a wire form to its row and back (R101, R102, R109, R120 to R126).
Step rows and function rows have no encoding ("the source gives events no encoding", R130), so `encode` answers none for them. -/

namespace Sys2Proof

/-- Where in a frame the bytes stand; a byte alone does not say which form it is (R101 and R109 both cover all 256 values). -/
inductive WirePos where
  /-- Header byte 0 of a client frame. -/
  | cfByte0
  /-- Header byte 1 of a client frame. -/
  | cfByte1
  /-- The header of a server frame. -/
  | sfHeader
  deriving DecidableEq, Repr

/-- Why bytes are no wire form. -/
inductive DecodeError where
  /-- The form has more bytes than were given. -/
  | truncated
  /-- Bytes follow the form. -/
  | trailing
  /-- Server frame byte 0 is not 0x81 (R121, R126). -/
  | notServerFrame
  /-- Server frame byte 1 has the mask bit (R122, R126). -/
  | maskedServerFrame
  /-- Server frame byte 1 is 127 (R126). -/
  | ext64ServerFrame
  /-- Server frame 16-bit length from 1 to 125 (R125). -/
  | nonMinimal
  deriving DecidableEq, Repr

/-- The outcome of decoding: the row, or why there is none. -/
inductive Decoded where
  | ok (i : Instr)
  | error (e : DecodeError)
  deriving DecidableEq, Repr

/-- The row, where there is one. -/
def Decoded.toOption : Decoded → Option Instr
  | .ok i => some i
  | .error _ => none

/-- Header byte 1 of a client frame (R109); the mask bit is tested first (R229). -/
def decodeByte1 (b : Byte) : Instr :=
  if Machine.maskbit b then
    if Machine.isInline (Machine.mark7 b) then .cfB1Short (Machine.mark7 b)
    else if Machine.isExt16 (Machine.mark7 b) then .cfB1Ext16
    else .cfB1Ext64
  else .cfB1Unmasked (BitVec.ofNat 7 b.toNat)

/-- The length that the two extended bytes of a server frame stand for: 0x0000 is `n = 65536`, 1 to 125 is never produced (R123, R125). -/
def decodeExtLength (h l : Byte) : Decoded :=
  if (Machine.be16 h l).toNat = 0 then .ok (.sfExt16 65536)
  else if (Machine.be16 h l).toNat ≤ 125 then .error .nonMinimal
  else .ok (.sfExt16 (Machine.be16 h l).toNat)

/-- A server frame header after byte 0 (R122, R123). -/
def decodeServerLength : List Byte → Decoded
  | [] => .error .truncated
  | b1 :: ext =>
    if Machine.maskbit b1 then .error .maskedServerFrame
    else if b1.toNat ≤ Config.markInlineMax then
      match ext with
      | [] => .ok (.sfShort (BitVec.ofNat 7 b1.toNat))
      | _ :: _ => .error .trailing
    else if b1.toNat = Config.markExt16 then
      match ext with
      | [h, l] => decodeExtLength h l
      | _ :: _ :: _ :: _ => .error .trailing
      | _ => .error .truncated
    else .error .ext64ServerFrame

/-- A server frame header (R120). -/
def decodeServer : List Byte → Decoded
  | [] => .error .truncated
  | b0 :: rest => if b0 = Config.sfByte0 then decodeServerLength rest else .error .notServerFrame

/-- The decoder: total on any bytes at any position, rejecting by name. -/
def decode (p : WirePos) (bs : List Byte) : Decoded :=
  match p with
  | .cfByte0 =>
    match bs with
    | [] => .error .truncated
    | [b] => .ok (.cfB0Any b)
    | _ :: _ :: _ => .error .trailing
  | .cfByte1 =>
    match bs with
    | [] => .error .truncated
    | [b] => .ok (decodeByte1 b)
    | _ :: _ :: _ => .error .trailing
  | .sfHeader => decodeServer bs

/-- The encoder: position and bytes of a wire form, written from R101, R109, R120 to R123; none for a row without an encoding. -/
def encode : Instr → Option (WirePos × List Byte)
  | .cfB0Any b => some (.cfByte0, [b])
  | .cfB1Unmasked m => some (.cfByte1, [BitVec.ofNat 8 m.toNat])
  | .cfB1Short m => some (.cfByte1, [BitVec.ofNat 8 (128 + m.toNat)])
  | .cfB1Ext16 => some (.cfByte1, [0xFE])
  | .cfB1Ext64 => some (.cfByte1, [0xFF])
  | .sfShort n => some (.sfHeader, [0x81, BitVec.ofNat 8 n.toNat])
  | .sfExt16 n => some (.sfHeader, [0x81, 0x7E, Machine.hi8 n, Machine.lo8 n])
  | .sfTooLarge _ => none
  | .decInvoke => none
  | .decB0 _ => none
  | .decB1Unmasked _ => none
  | .decB1 _ => none
  | .decB1Short _ => none
  | .decB1Ext16 => none
  | .decB1Ext64 => none
  | .decXh _ => none
  | .decXl _ => none
  | .decKey _ => none
  | .decPay _ => none
  | .decRxFail => none
  | .decCheck => none
  | .decIgnore _ => none
  | .decRead _ => none
  | .encInvoke _ => none
  | .encShort _ => none
  | .encExt16 _ => none
  | .encTooLarge _ => none
  | .encPay _ => none
  | .encIgnore _ => none
  | .encRead _ => none
  | .reset => none
  | .maskbit _ => none
  | .mark7 _ => none
  | .be16 _ _ => none
  | .hi8 _ => none
  | .lo8 _ => none
  | .unmask1 _ _ _ => none
  | .unmask _ _ => none
  | .isInline _ => none
  | .isExt16 _ => none
  | .isExt64 _ => none
  | .fitsShort _ => none
  | .fitsExt16 _ => none
  | .tooLarge _ => none
  | .utf8Valid _ => none
  | .decodeFrame _ _ => none
  | .encodeMessage _ => none

/-- The bytes of a table word as the hardware has them in stream order. The table numbers a form of several bytes as ONE number
with the first byte most significant (98_reader; SF.SHORT's fixed bits 15:7 are 0x81 and a 0), so byte 0 is the top byte
(entry 13). A word of 8 bits is header byte 1 of a client frame; header byte 0 has the same word and needs its position. -/
def tableBytes (nbits w : Nat) : WirePos × List Byte :=
  if nbits ≤ 8 then (.cfByte1, [BitVec.ofNat 8 w])
  else if nbits ≤ 16 then
    if w % 256 = Config.markExt16 then (.sfHeader, [BitVec.ofNat 8 (w / 256), BitVec.ofNat 8 w, 0, 0])
    else (.sfHeader, [BitVec.ofNat 8 (w / 256), BitVec.ofNat 8 w])
  else (.sfHeader, [BitVec.ofNat 8 (w / 16777216), BitVec.ofNat 8 (w / 65536), BitVec.ofNat 8 (w / 256), BitVec.ofNat 8 w])

/-- What the decoder reads from the table word `w` of `nbits` bits. -/
def decodeTableWord (nbits w : Nat) : Option Instr :=
  if 0 < nbits ∧ nbits ≤ 32 ∧ w < 2 ^ nbits then (decode (tableBytes nbits w).1 (tableBytes nbits w).2).toOption
  else none

end Sys2Proof
end

