-- ==== Sys2Proof/Machine/State.lean ====
section
/-! DEFINITION. The state of one codec instance as plain data (10_state R30 to R58), the parameters it was built with, what the
environment holds for it, and the reasons a step can stop. -/

namespace Sys2Proof.Machine

/-- `DEC_ST`, the decoder's sequencer (R36). The numbers 10 to 15 are no value of it (U19). -/
inductive DecSt where
  | idle
  | b0
  | b1
  | xh
  | xl
  | key
  | pay
  | chk
  | done
  | err
  deriving DecidableEq, Repr

/-- `ENC_ST`, the encoder's sequencer (R44). -/
inductive EncSt where
  | idle
  | pay
  | done
  | err
  deriving DecidableEq, Repr

/-- The error codes (R221). The numbers 6 and 7 are no value of it (U19). -/
inductive ErrCode where
  | none
  | unsupportedFrameSize
  | messageTooLarge
  | invalidEncoding
  | transportFailure
  | unmaskedFrame
  deriving DecidableEq, Repr

/-- A byte buffer: its bytes that have a value, by index, strictly rising (`Memory.wf`). An index not listed has NO VALUE
(R58, R72, R73; log entry 5). -/
abbrev Memory := List Host.Cell

/-- The decoder unit (R30). -/
structure Dec where
  /-- `DEC_ST` (R36). -/
  st : DecSt
  /-- `DEC_MARK` (R37). -/
  mark : BitVec 7
  /-- `DEC_LEN[15:8]` (R38); R167 and R168 write the two halves apart (log entry 11). -/
  lenHi : Byte
  /-- `DEC_LEN[7:0]` (R38). -/
  lenLo : Byte
  /-- `DEC_KIDX` (R39). -/
  kidx : BitVec 2
  /-- `DEC_KEY[0..3]` (R40). -/
  key : Key
  /-- `DEC_IDX` (R41). -/
  idx : BitVec 16
  /-- `DEC_ERR` (R42). -/
  err : ErrCode
  /-- `DEC_BUF` (R43, R72). -/
  buf : Memory
  /-- The MODEL's own: how many free values the unit has drawn (log entry 2). -/
  free : Nat
  /-- The MODEL's own: the byte the last `DecRead` returned on `dec_rd_data` (R32, R174; log entry 6); none before the first. -/
  rd : Option Byte
  deriving DecidableEq, Repr

/-- The encoder unit (R30). -/
structure Enc where
  /-- `ENC_ST` (R44). -/
  st : EncSt
  /-- `ENC_N` (R45). -/
  n : BitVec 17
  /-- `ENC_HLEN` (R46). -/
  hlen : BitVec 3
  /-- `ENC_IDX` (R47). -/
  idx : BitVec 17
  /-- `ENC_TOT` (R48). -/
  tot : BitVec 17
  /-- `ENC_ERR` (R49). -/
  err : ErrCode
  /-- `ENC_BUF` (R50, R73). -/
  buf : Memory
  /-- The MODEL's own: how many free values the unit has drawn (log entry 2). -/
  free : Nat
  /-- The MODEL's own: the byte the last `EncRead` returned on `enc_rd_data` (R33, R196; log entry 6); none before the first. -/
  rd : Option Byte
  deriving DecidableEq, Repr

/-- The two units of an instance. -/
inductive UnitId where
  | decoder
  | encoder
  deriving DecidableEq, Repr

/-- The outcome of `decode` and `encode` (R175, R197). -/
inductive FrameOutcome where
  /-- `Ok`: the payload, or the frame. -/
  | ok (bytes : List Byte)
  /-- `Error`. -/
  | error (e : ErrCode)
  /-- The unit waits for more bytes; no outcome yet. -/
  | wait
  deriving DecidableEq, Repr

/-- The result of a utility function (40_bit_byte_utilities). -/
inductive Value where
  | flag (b : Bool)
  | marker (m : BitVec 7)
  | half (v : BitVec 16)
  | byte (b : Byte)
  | bytes (l : List Byte)
  | outcome (o : FrameOutcome)
  deriving DecidableEq, Repr

/-- The input ports at one rising edge of `clk` that carry events (R31 to R34); the two read-address ports are arguments of
`portsOut`. -/
structure PortsIn where
  rst       : Bool
  decInvoke : Bool
  rxValid   : Bool
  rxData    : Byte
  rxFail    : Bool
  encInvoke : Bool
  encN      : Nat
  plValid   : Bool
  plData    : Byte
  deriving DecidableEq, Repr

/-- What the host does next; the MODEL's own form of the world outside the block (log entry 1). -/
inductive Stim where
  /-- Deliver an event of R19. -/
  | event (e : Event)
  /-- One rising clock edge with these input ports (R34). -/
  | edge (p : PortsIn)
  /-- Present the bytes of a wire form at its position in a frame (R130). -/
  | wire (p : WirePos) (bs : List Byte)
  /-- Apply a row of the opcode table as it stands (R130): the way to a function row or the common part of a step. -/
  | apply (i : Instr)
  /-- Wait until the unit is not busy (R271). -/
  | await (u : UnitId)
  deriving DecidableEq, Repr

/-- What the environment holds for the block (R70, R71, R74; log entry 1). -/
structure Env where
  /-- What the host does next, oldest first. -/
  inbox : List Stim
  /-- `RX`: the bytes the transport holds, oldest first. -/
  rx : List Byte
  /-- `rx_fail`: the transport can supply no byte after those of `rx`. -/
  rxFail : Bool
  /-- `PL`: the payload bytes the host offers, oldest first. -/
  pl : List Byte
  deriving DecidableEq, Repr

/-- The state of the model. -/
structure State where
  /-- The decoder unit. -/
  dec : Dec
  /-- The encoder unit. -/
  enc : Enc
  /-- The parameters the instance was built with (R6, R10, R57; log entry 7). No instruction writes them. -/
  par : Config.Params
  /-- The environment. -/
  env : Env
  /-- The MODEL's own: the result of the last utility-function row (log entry 14); none before the first. -/
  result : Option Value
  deriving DecidableEq, Repr

/-- Why the machine stops with a fault. Both are taken only in states no run from reset reaches (log entry 16); both are safe. -/
inductive Fault where
  /-- DEC.PAY would write `DEC_BUF` past its last index 65534, an address that does not exist (R72). Raised by `execDecPay`. Safe. -/
  | decBufRange
  /-- ENC.PAY would write `ENC_BUF` past its last index, an address that does not exist (R73). Raised by `execEncPay`. Safe. -/
  | encBufRange
  deriving DecidableEq, Repr

/-- Why the machine refuses. -/
inductive Refusal where
  /-- The instruction has no meaning in the model yet. Raised by an arm of `exec` only. Safe. -/
  | notModelled (mnemonic : String)
  /-- The host presents as a wire form bytes that are none (R125, R126). Raised by `step`, never by a meaning. Safe. -/
  | badWire (e : DecodeError)
  deriving DecidableEq, Repr

/-- The outcome of an instruction or a step. -/
abbrev Result := Host.Outcome State Fault Refusal

/-- The decoder unit right after reset (R58): `D_IDLE`, `ERR_NONE`, no byte of `DEC_BUF` has a value. The spec leaves the other
registers unspecified; they are 0 here. DESIGN CHOICE (log entry 4), unsafe. -/
def Dec.reset : Dec :=
  { st := .idle, mark := 0, lenHi := 0, lenLo := 0, kidx := 0, key := { k0 := 0, k1 := 0, k2 := 0, k3 := 0 }, idx := 0,
    err := .none, buf := [], free := 0, rd := none }

/-- The encoder unit right after reset (R58): `E_IDLE`, `ERR_NONE`, `ENC_TOT` = 0, no byte of `ENC_BUF` has a value. The spec
leaves the other registers unspecified; they are 0 here. DESIGN CHOICE (log entry 4), unsafe. -/
def Enc.reset : Enc :=
  { st := .idle, n := 0, hlen := 0, idx := 0, tot := 0, err := .none, buf := [], free := 0, rd := none }

/-- The machine right after reset (R58, R260), with the default parameters (R6, R10) and nothing in the environment (entry 1). -/
def State.reset : State :=
  { dec := Dec.reset, enc := Enc.reset, par := Config.Params.default,
    env := { inbox := [], rx := [], rxFail := false, pl := [] }, result := none }

end Sys2Proof.Machine
end

