-- ==== Sys2Proof/Machine/Flags.lean ====
section
/-! DEFINITION. What is a function of the registers: the numbers of the sequencers and error codes (R36, R44, R221), `DEC_LEN` as
one word (R38), the status lines and output ports (R32, R33, R51), and the position in the inbound frame (R53). -/

namespace Sys2Proof.Machine

/-- The number of a decoder state (R36). -/
def DecSt.code : DecSt → BitVec 4
  | .idle => 0
  | .b0 => 1
  | .b1 => 2
  | .xh => 3
  | .xl => 4
  | .key => 5
  | .pay => 6
  | .chk => 7
  | .done => 8
  | .err => 9

/-- The number of an encoder state (R44). -/
def EncSt.code : EncSt → BitVec 2
  | .idle => 0
  | .pay => 1
  | .done => 2
  | .err => 3

/-- The number of an error (R221). -/
def ErrCode.code : ErrCode → BitVec 3
  | .none => 0
  | .unsupportedFrameSize => 1
  | .messageTooLarge => 2
  | .invalidEncoding => 3
  | .transportFailure => 4
  | .unmaskedFrame => 5

/-- A byte-awaiting state: a read is pending (R24, R36). -/
def DecSt.awaiting : DecSt → Bool
  | .idle => false
  | .b0 => true
  | .b1 => true
  | .xh => true
  | .xl => true
  | .key => true
  | .pay => true
  | .chk => false
  | .done => false
  | .err => false

/-- A state in which `DecInvoke` acts (R160). -/
def DecSt.accepts : DecSt → Bool
  | .idle => true
  | .b0 => false
  | .b1 => false
  | .xh => false
  | .xl => false
  | .key => false
  | .pay => false
  | .chk => false
  | .done => true
  | .err => false

/-- A state in which `EncInvoke` acts (R190). -/
def EncSt.accepts : EncSt → Bool
  | .idle => true
  | .pay => false
  | .done => true
  | .err => false

/-- `DEC_LEN`, 16 bits (R38). -/
def Dec.len (d : Dec) : BitVec 16 := be16 d.lenHi d.lenLo

/-- `rx_ready` (R32). -/
def State.rxReady (s : State) : Bool := s.dec.st.awaiting
/-- `dec_busy` (R32). -/
def State.decBusy (s : State) : Bool := decide (s.dec.st ≠ .idle ∧ s.dec.st ≠ .done ∧ s.dec.st ≠ .err)
/-- `dec_done` (R32). -/
def State.decDone (s : State) : Bool := decide (s.dec.st = .done)
/-- `dec_err` (R32). -/
def State.decErr (s : State) : Bool := decide (s.dec.st = .err)
/-- `pl_ready` (R33). -/
def State.plReady (s : State) : Bool := decide (s.enc.st = .pay)
/-- `enc_busy` (R33). -/
def State.encBusy (s : State) : Bool := decide (s.enc.st = .pay)
/-- `enc_done` (R33). -/
def State.encDone (s : State) : Bool := decide (s.enc.st = .done)
/-- `enc_err` (R33). -/
def State.encErr (s : State) : Bool := decide (s.enc.st = .err)
/-- `fatal` = `dec_err OR enc_err` (R33, R234). -/
def State.fatal (s : State) : Bool := s.decErr || s.encErr

/-- Index `i` lies in a result the host may read: `D_DONE` and `i < DEC_LEN` (R72, R174). -/
def Dec.inWindow (d : Dec) (i : Nat) : Bool := decide (d.st = .done ∧ i < d.len.toNat)

/-- Index `i` lies in a frame the host may read: `E_DONE` and `i < ENC_TOT` (R73, R196). -/
def Enc.inWindow (e : Enc) (i : Nat) : Bool := decide (e.st = .done ∧ i < e.tot.toNat)

/-- How many header bytes of the frame stand before the key: 2, or 4 for the 16-bit class (R53, R100). -/
def Dec.headerLen (d : Dec) : Nat := if d.mark.toNat ≤ Config.markInlineMax then 2 else 4

/-- The position in the inbound frame, in bytes from its start (R53); none outside a frame (`D_IDLE`, `D_ERR`). -/
def Dec.framePos (d : Dec) : Option Nat :=
  match d.st with
  | .idle => none
  | .b0 => some 0
  | .b1 => some 1
  | .xh => some 2
  | .xl => some 3
  | .key => some (d.headerLen + d.kidx.toNat)
  | .pay => some (d.headerLen + 4 + d.idx.toNat)
  | .chk => some (d.headerLen + 4 + d.len.toNat)
  | .done => some (d.headerLen + 4 + d.len.toNat)
  | .err => none

end Sys2Proof.Machine
end

