-- ==== Sys2Proof/Machine/Text.lean ====
section
/-! DEFINITION. The text check `Utf8Valid` (43_text_check). -/

namespace Sys2Proof.Machine

/-- The nine rows of R211's table: for each, the ranges of its bytes in order. -/
def utf8Rows : List (List (Nat × Nat)) :=
  [ [(0x00, 0x7F)],
    [(0xC2, 0xDF), (0x80, 0xBF)],
    [(0xE0, 0xE0), (0xA0, 0xBF), (0x80, 0xBF)],
    [(0xE1, 0xEC), (0x80, 0xBF), (0x80, 0xBF)],
    [(0xED, 0xED), (0x80, 0x9F), (0x80, 0xBF)],
    [(0xEE, 0xEF), (0x80, 0xBF), (0x80, 0xBF)],
    [(0xF0, 0xF0), (0x90, 0xBF), (0x80, 0xBF), (0x80, 0xBF)],
    [(0xF1, 0xF3), (0x80, 0xBF), (0x80, 0xBF), (0x80, 0xBF)],
    [(0xF4, 0xF4), (0x80, 0x8F), (0x80, 0xBF), (0x80, 0xBF)] ]

/-- The bytes after a group that matches the row, or none where the row does not match here. -/
def matchRow : List (Nat × Nat) → List Byte → Option (List Byte)
  | [], bs => some bs
  | _ :: _, [] => none
  | (lo, hi) :: row, b :: bs => if lo ≤ b.toNat ∧ b.toNat ≤ hi then matchRow row bs else none

/-- The bytes after the group at the head, by the first row that matches. -/
def matchGroup (rows : List (List (Nat × Nat))) (bs : List Byte) : Option (List Byte) :=
  match rows with
  | [] => none
  | row :: more =>
    match matchRow row bs with
    | some rest => some rest
    | none => matchGroup more bs

/-- One pass from index 0, group by group, at most `fuel` groups (R211). -/
def utf8Groups : Nat → List Byte → Bool
  | _, [] => true
  | 0, _ :: _ => false
  | fuel + 1, b :: bs =>
    match matchGroup utf8Rows (b :: bs) with
    | some rest => utf8Groups fuel rest
    | none => false

/-- The default `Utf8Valid` (R211); PRESUMED by the spec itself: from general knowledge, not in source (entry 8). -/
def utf8Standard (p : List Byte) : Bool := utf8Groups p.length p

/-- `Utf8Valid` of the instance (R10, R210): the default, or an arbitrary predicate that is true on the empty sequence (entry 7). -/
def utf8Valid (rule : Config.TextRule) (p : List Byte) : Bool :=
  match rule with
  | .standard => utf8Standard p
  | .other => p.isEmpty || Config.otherText p

end Sys2Proof.Machine
end

