-- ==== Sys2Proof/Machine/Ops.lean ====
section
/-! DEFINITION. The named operations over buffers, units and the state: reading and writing a buffer, the error entry of R230,
withdrawing values (R160, R190, R260), and each unit's transitions, which the meanings of the rows share. -/

namespace Sys2Proof.Machine

/-- What an index nothing has written reads as: no value (R58; log entry 5). -/
def Memory.unlisted : Option Byte := none

/-- `MemRead` (R18): the byte at index `a`, if it has a value. -/
def Memory.read (m : Memory) (a : Nat) : Option Byte :=
  match m with
  | [] => Memory.unlisted
  | (x, b) :: rest => if x = a then some b else Memory.read rest a

/-- `MemWrite` (R18): the byte at index `a` becomes `v`; the list stays strictly rising. -/
def Memory.write (m : Memory) (a : Nat) (v : Byte) : Memory :=
  match m with
  | [] => [(a, v)]
  | (x, b) :: rest =>
    if a < x then (a, v) :: (x, b) :: rest
    else if a = x then (a, v) :: rest
    else (x, b) :: Memory.write rest a v

/-- Every index listed is above `lo`, and they rise strictly. -/
def Memory.risesFrom (lo : Nat) (m : Memory) : Bool :=
  match m with
  | [] => true
  | (x, _) :: rest => decide (lo ≤ x) && Memory.risesFrom (x + 1) rest

/-- The canonical form: indices strictly rising. (An unlisted index has no value, so no listed byte equals it.) -/
def Memory.wf (m : Memory) : Bool := Memory.risesFrom 0 m

/-- Replace the decoder unit. -/
def State.withDec (s : State) (d : Dec) : State := { s with dec := d }
/-- Replace the encoder unit. -/
def State.withEnc (s : State) (e : Enc) : State := { s with enc := e }
/-- Show the result of a function row. -/
def State.withResult (s : State) (v : Value) : State := { s with result := some v }
/-- Replace the environment. -/
def State.withEnv (s : State) (v : Env) : State := { s with env := v }

/-- A decoder row: where it fires, the unit becomes `d`; where it does not, nothing changes (R173; log entry 10). -/
def decRow (fires : Bool) (d : Dec) (s : State) : Result := .next (if fires then s.withDec d else s)

/-- An encoder row: where it fires, the unit becomes `e`; where it does not, nothing changes (R195; log entry 10). -/
def encRow (fires : Bool) (e : Enc) (s : State) : Result := .next (if fires then s.withEnc e else s)

/-! The error entry (R230): the one operation by which a unit takes an error. There is no return from an error (R232); the
only way out is `Reset`. -/

/-- `raise E` in the decoder: `DEC_ERR <- code(E); DEC_ST <- D_ERR`; nothing else changes (R230). -/
def Dec.raise (e : ErrCode) (d : Dec) : Dec := { d with err := e, st := .err }

/-- `raise E` in the encoder: `ENC_ERR <- code(E); ENC_ST <- E_ERR; ENC_TOT <- 0`; nothing else changes (R230). -/
def Enc.raise (e : ErrCode) (u : Enc) : Enc := { u with err := e, st := .err, tot := 0 }

/-! Withdrawing values. -/

/-- The registers and every byte of `DEC_BUF` have no value until a later step writes them: the registers hold free values, the
buffer lists nothing (R160, R260; log entry 2). -/
def Dec.forget (d : Dec) : Dec :=
  { d with
    mark := Config.decFree 7 d.free
    lenHi := Config.decFree 8 (d.free + 1)
    lenLo := Config.decFree 8 (d.free + 2)
    kidx := Config.decFree 2 (d.free + 3)
    key := { k0 := Config.decFree 8 (d.free + 4), k1 := Config.decFree 8 (d.free + 5),
             k2 := Config.decFree 8 (d.free + 6), k3 := Config.decFree 8 (d.free + 7) }
    idx := Config.decFree 16 (d.free + 8)
    buf := []
    free := d.free + 9 }

/-- `DEC_KIDX` has a value only in `D_KEY` (R39): it holds a free value once the key is complete. -/
def Dec.forgetKidx (d : Dec) : Dec := { d with kidx := Config.decFree 2 d.free, free := d.free + 1 }

/-- The key is "used to unmask that frame's payload, then discarded" (R40): it holds free values once the frame leaves `D_PAY`. -/
def Dec.forgetKey (d : Dec) : Dec :=
  { d with
    key := { k0 := Config.decFree 8 d.free, k1 := Config.decFree 8 (d.free + 1),
             k2 := Config.decFree 8 (d.free + 2), k3 := Config.decFree 8 (d.free + 3) }
    free := d.free + 4 }

/-- `ENC_N`, `ENC_HLEN`, `ENC_IDX` and every byte of `ENC_BUF` have no value (R260; log entry 2). -/
def Enc.forget (e : Enc) : Enc :=
  { e with
    n := Config.encFree 17 e.free
    hlen := Config.encFree 3 (e.free + 1)
    idx := Config.encFree 17 (e.free + 2)
    buf := []
    free := e.free + 3 }

/-! Transitions of the decoder unit. -/

/-- R160: the unit starts a frame; what the previous frame left has no value. -/
def Dec.start (d : Dec) : Dec := { d.forget with st := .b0 }

/-- R161: header byte 0 is taken and dropped. -/
def Dec.takeByte0 (d : Dec) : Dec := { d with st := .b1 }

/-- R163 with R164, for marker `m ≤ 125`: the marker is the payload length. -/
def Dec.takeShort (m : BitVec 7) (d : Dec) : Dec :=
  { d with mark := m, lenHi := 0, lenLo := m.setWidth 8, kidx := 0, st := .key }

/-- R163 with R165: marker 126; two length bytes follow. -/
def Dec.takeExt16 (d : Dec) : Dec := { d with mark := BitVec.ofNat 7 Config.markExt16, st := .xh }

/-- R163 with R166: marker 127; the frame is refused. -/
def Dec.takeExt64 (d : Dec) : Dec :=
  Dec.raise .unsupportedFrameSize { d with mark := BitVec.ofNat 7 Config.markExt64 }

/-- R162: header byte 1 without the mask bit, under `UNMASKED_POLICY` = `fault` (R11). -/
def Dec.takeUnmasked (d : Dec) : Dec := d.raise .unmaskedFrame

/-- R163: the marker of header byte 1 is latched, then exactly one of R164, R165, R166 in the same step. -/
def Dec.takeByte1 (b : Byte) (d : Dec) : Dec :=
  if isInline (mark7 b) then d.takeShort (mark7 b)
  else if isExt16 (mark7 b) then d.takeExt16
  else d.takeExt64

/-- R167: the high byte of the 16-bit length. -/
def Dec.takeLenHi (b : Byte) (d : Dec) : Dec := { d with lenHi := b, st := .xl }

/-- R168: the low byte of the 16-bit length. -/
def Dec.takeLenLo (b : Byte) (d : Dec) : Dec := { d with lenLo := b, kidx := 0, st := .key }

/-- R169, fourth key byte: no payload byte is read where `DEC_LEN = 0`. -/
def Dec.keyComplete (d : Dec) : Dec :=
  if d.len = 0 then ({ d with idx := 0, st := .chk }).forgetKidx
  else ({ d with idx := 0, st := .pay }).forgetKidx

/-- R169: a masking-key byte. -/
def Dec.takeKey (b : Byte) (d : Dec) : Dec :=
  if d.kidx.toNat < 3 then { d with key := setKeyByte d.key d.kidx.toNat b, kidx := d.kidx + 1 }
  else ({ d with key := setKeyByte d.key d.kidx.toNat b }).keyComplete

/-- R170: the byte is unmasked and stored, the index advances. -/
def Dec.storePayload (b : Byte) (d : Dec) : Dec :=
  { d with buf := Memory.write d.buf d.idx.toNat (unmask1 b d.key d.idx.toNat), idx := d.idx + 1 }

/-- R170: a masked payload byte; the last one ends the payload. -/
def Dec.takePayload (b : Byte) (d : Dec) : Dec :=
  if d.idx + 1 = d.len then ({ d.storePayload b with st := .chk }).forgetKey else d.storePayload b

/-- `[ MemRead(DEC_BUF, i, 1) for i in 0 .. DEC_LEN-1 ]` (R172). -/
def Dec.payload (d : Dec) : List Byte :=
  (List.range d.len.toNat).map fun i => (Memory.read d.buf i).getD (Config.decUnwritten i)

/-- R172: the text check over the whole payload. -/
def Dec.check (rule : Config.TextRule) (d : Dec) : Dec :=
  if utf8Valid rule d.payload then { d with st := .done } else d.raise .invalidEncoding

/-- R174: the byte of the result, or an unspecified one (U7) outside the window; no register changes. -/
def Dec.readByte (i : Nat) (d : Dec) : Dec :=
  if d.inWindow i then { d with rd := some ((Memory.read d.buf i).getD (Config.decUnwritten i)) }
  else { d with rd := some (Config.decFree 8 d.free), free := d.free + 1 }

/-- R260 for the decoder. -/
def Dec.restart (d : Dec) : Dec := { d.forget with st := .idle, err := .none }

/-! Transitions of the encoder unit. -/

/-- R190, common part: a frame left in `E_DONE` is given up and no byte of `ENC_BUF` has a value. -/
def Enc.begin (e : Enc) : Enc := { e with tot := 0, buf := [] }

/-- R191: the 2-byte header. -/
def Enc.startShort (n : Nat) (e : Enc) : Enc :=
  { e.begin with
    buf := Memory.write (Memory.write [] 0 Config.sfByte0) 1 (lo8 n)
    hlen := 2
    n := BitVec.ofNat 17 n
    idx := 0
    tot := if n = 0 then 2 else 0
    st := if n = 0 then .done else .pay }

/-- R192: the 4-byte header. -/
def Enc.startExt16 (n : Nat) (e : Enc) : Enc :=
  { e.begin with
    buf := Memory.write (Memory.write (Memory.write (Memory.write [] 0 Config.sfByte0) 1
      (BitVec.ofNat 8 Config.markExt16)) 2 (hi8 n)) 3 (lo8 n)
    hlen := 4
    n := BitVec.ofNat 17 n
    idx := 0
    st := .pay }

/-- R193: the message is refused before any byte is written. -/
def Enc.refuse (e : Enc) : Enc := e.begin.raise .messageTooLarge

/-- R190: the common part, then exactly one of R191, R192, R193 in the same step. -/
def Enc.invoke (max : Config.EncMax) (n : Nat) (e : Enc) : Enc :=
  if fitsShort n then e.startShort n
  else if fitsExt16 max n then e.startExt16 n
  else e.refuse

/-- Where the next payload byte goes: `ENC_HLEN + ENC_IDX` (R194). -/
def Enc.payAddr (e : Enc) : Nat := e.hlen.toNat + e.idx.toNat

/-- R194: the byte is stored unchanged, the index advances. -/
def Enc.storePayload (b : Byte) (e : Enc) : Enc :=
  { e with buf := Memory.write e.buf e.payAddr b, idx := e.idx + 1 }

/-- R194: a payload byte; the last one completes the frame. -/
def Enc.takePayload (b : Byte) (e : Enc) : Enc :=
  if e.idx + 1 = e.n then { e.storePayload b with tot := e.hlen.setWidth 17 + e.n, st := .done } else e.storePayload b

/-- R196: the byte of the frame, or an unspecified one (U7) outside the window; no register changes. -/
def Enc.readByte (i : Nat) (e : Enc) : Enc :=
  if e.inWindow i then { e with rd := some ((Memory.read e.buf i).getD (Config.encUnwritten i)) }
  else { e with rd := some (Config.encFree 8 e.free), free := e.free + 1 }

/-- R260 for the encoder. -/
def Enc.restart (e : Enc) : Enc := { e.forget with st := .idle, err := .none, tot := 0 }

/-- `ENC_BUF[0..ENC_TOT)`, the finished frame (R73, R196). -/
def Enc.frame (e : Enc) : List Byte :=
  (List.range e.tot.toNat).map fun i => (Memory.read e.buf i).getD (Config.encUnwritten i)

end Sys2Proof.Machine
end

