-- ==== Sys2Proof/Machine/Decoder.lean ====
section
/-! DEFINITION. The meanings of the decoder's step rows (41_frame_decoder, R160 to R174) and of RESET (R260). A row fires where the
decoder's state and the row's operand select it; elsewhere it changes nothing (log entry 10). -/

namespace Sys2Proof.Machine

/-- DEC.INVOKE (R160): `DecInvoke` in `D_IDLE` or `D_DONE`. -/
def execDecInvoke (s : State) : Result := decRow s.dec.st.accepts s.dec.start s

/-- DEC.B0 (R161): `RxByte(b)` in `D_B0`; `b` is used for nothing and stored nowhere. -/
def execDecB0 (_b : Byte) (s : State) : Result := decRow (decide (s.dec.st = .b0)) s.dec.takeByte0 s

/-- DEC.B1.UNMASKED (R162): `RxByte(b)` in `D_B1`, `b < 128`. -/
def execDecB1Unmasked (b : Byte) (s : State) : Result :=
  decRow (decide (s.dec.st = .b1) && !maskbit b) s.dec.takeUnmasked s

/-- DEC.B1 (R163): `RxByte(b)` in `D_B1`, `b ≥ 128`; the common part and exactly one of R164, R165, R166. -/
def execDecB1 (b : Byte) (s : State) : Result :=
  decRow (decide (s.dec.st = .b1) && maskbit b) (s.dec.takeByte1 b) s

/-- DEC.B1.SHORT (R164): `RxByte(b)` in `D_B1`, `0x80 ≤ b ≤ 0xFD`. -/
def execDecB1Short (b : Byte) (s : State) : Result :=
  decRow (decide (s.dec.st = .b1) && maskbit b && isInline (mark7 b)) (s.dec.takeShort (mark7 b)) s

/-- DEC.B1.EXT16 (R165): `RxByte(0xFE)` in `D_B1`. -/
def execDecB1Ext16 (s : State) : Result := decRow (decide (s.dec.st = .b1)) s.dec.takeExt16 s

/-- DEC.B1.EXT64 (R166): `RxByte(0xFF)` in `D_B1`. -/
def execDecB1Ext64 (s : State) : Result := decRow (decide (s.dec.st = .b1)) s.dec.takeExt64 s

/-- DEC.XH (R167): `RxByte(b)` in `D_XH`. -/
def execDecXh (b : Byte) (s : State) : Result := decRow (decide (s.dec.st = .xh)) (s.dec.takeLenHi b) s

/-- DEC.XL (R168): `RxByte(b)` in `D_XL`. -/
def execDecXl (b : Byte) (s : State) : Result := decRow (decide (s.dec.st = .xl)) (s.dec.takeLenLo b) s

/-- DEC.KEY (R169): `RxByte(b)` in `D_KEY`. -/
def execDecKey (b : Byte) (s : State) : Result := decRow (decide (s.dec.st = .key)) (s.dec.takeKey b) s

/-- DEC.PAY (R170): `RxByte(b)` in `D_PAY`. An index past the buffer's last (no state of a run has one, R151) is a fault. -/
def execDecPay (b : Byte) (s : State) : Result :=
  if s.dec.st = .pay ∧ Config.decCap ≤ s.dec.idx.toNat then .fault .decBufRange
  else decRow (decide (s.dec.st = .pay)) (s.dec.takePayload b) s

/-- DEC.RXFAIL (R171): `RxFail` in a byte-awaiting state. -/
def execDecRxFail (s : State) : Result := decRow s.dec.st.awaiting (s.dec.raise .transportFailure) s

/-- DEC.CHECK (R172): `DecCheck` in `D_CHK`. -/
def execDecCheck (s : State) : Result := decRow (decide (s.dec.st = .chk)) (s.dec.check s.par.text) s

/-- DEC.IGNORE (R173): changes no state. -/
def execDecIgnore (_e : DecEvent) (s : State) : Result := .next s

/-- DEC.READ (R174): `DecRead(i)`; changes no register. -/
def execDecRead (i : BitVec 16) (s : State) : Result := decRow true (s.dec.readByte i.toNat) s

/-- RESET (R260): both units, in any state. The parameters are configuration and the environment is not the block's. -/
def execReset (s : State) : Result := .next ((s.withDec s.dec.restart).withEnc s.enc.restart)

end Sys2Proof.Machine
end

