-- ==== Sys2Proof/Machine/Encoder.lean ====
section
/-! DEFINITION. The meanings of the encoder's step rows (42_frame_encoder, R190 to R196). A row fires where the encoder's state and
the row's operand select it; elsewhere it changes nothing (log entry 10). -/

namespace Sys2Proof.Machine

/-- ENC.INVOKE (R190): `EncInvoke(n)` in `E_IDLE` or `E_DONE`; the common part and exactly one of R191, R192, R193. -/
def execEncInvoke (n : Nat) (s : State) : Result := encRow s.enc.st.accepts (s.enc.invoke s.par.encMax n) s

/-- ENC.SHORT (R191): `EncInvoke(n)`, `n ≤ 125`. -/
def execEncShort (n : Nat) (s : State) : Result :=
  encRow (s.enc.st.accepts && fitsShort n) (s.enc.startShort n) s

/-- ENC.EXT16 (R192): `EncInvoke(n)`, `125 < n ≤ ENC_MAX_N`. -/
def execEncExt16 (n : Nat) (s : State) : Result :=
  encRow (s.enc.st.accepts && fitsExt16 s.par.encMax n) (s.enc.startExt16 n) s

/-- ENC.TOOLARGE (R193): `EncInvoke(n)`, `n > ENC_MAX_N`. -/
def execEncTooLarge (n : Nat) (s : State) : Result :=
  encRow (s.enc.st.accepts && tooLarge s.par.encMax n) s.enc.refuse s

/-- ENC.PAY (R194): `PlByte(b)` in `E_PAY`. An index past the buffer's last (no state of a run has one, R151) is a fault. -/
def execEncPay (b : Byte) (s : State) : Result :=
  if s.enc.st = .pay ∧ Config.encCap s.par.encMax ≤ s.enc.payAddr then .fault .encBufRange
  else encRow (decide (s.enc.st = .pay)) (s.enc.takePayload b) s

/-- ENC.IGNORE (R195): changes no state. -/
def execEncIgnore (_e : EncEvent) (s : State) : Result := .next s

/-- ENC.READ (R196): `EncRead(i)`; changes no register. -/
def execEncRead (i : BitVec 17) (s : State) : Result := encRow true (s.enc.readByte i.toNat) s

end Sys2Proof.Machine
end

