-- ==== Sys2Proof/Machine/Frame.lean ====
section
/-! DEFINITION. Whole frames as pure functions: `decode` (R175), `encode` (R197), and the pseudo-operations of R132, which the
writer of a test expands, never the block. -/

namespace Sys2Proof.Machine

/-- `next(s)` where `s` is exhausted: `TransportFailure` on FAIL, otherwise the decoder waits (R175). -/
def exhausted (fail : Bool) : FrameOutcome := if fail then .error .transportFailure else .wait

/-- `decode` from the key on, for payload length `len` (R175). -/
def decodeBody (rule : Config.TextRule) (len : Nat) (s : List Byte) (fail : Bool) : FrameOutcome :=
  match s with
  | k0 :: k1 :: k2 :: k3 :: q =>
    if q.length < len then exhausted fail
    else
      if utf8Valid rule (unmask { k0 := k0, k1 := k1, k2 := k2, k3 := k3 } (q.take len))
      then .ok (unmask { k0 := k0, k1 := k1, k2 := k2, k3 := k3 } (q.take len))
      else .error .invalidEncoding
  | _ => exhausted fail

/-- `decode(s)` (R175): `s` the bytes the transport supplies, `fail` whether it fails in place of a byte after them. -/
def frameDecode (rule : Config.TextRule) (s : List Byte) (fail : Bool) : FrameOutcome :=
  match s with
  | _ :: b1 :: r =>
    if maskbit b1 then
      if isInline (mark7 b1) then decodeBody rule (mark7 b1).toNat r fail
      else if isExt16 (mark7 b1) then
        match r with
        | hi :: lo :: r' => decodeBody rule (be16 hi lo).toNat r' fail
        | _ => exhausted fail
      else .error .unsupportedFrameSize
    else .error .unmaskedFrame
  | _ => exhausted fail

/-- `encode(p)` (R197). -/
def frameEncode (max : Config.EncMax) (p : List Byte) : FrameOutcome :=
  if fitsShort p.length then .ok (Config.sfByte0 :: lo8 p.length :: p)
  else if fitsExt16 max p.length then
    .ok (Config.sfByte0 :: BitVec.ofNat 8 Config.markExt16 :: hi8 p.length :: lo8 p.length :: p)
  else .error .messageTooLarge

/-- The four key bytes in stream order (R77). -/
def keyBytes (key : Key) : List Byte := [key.k0, key.k1, key.k2, key.k3]

/-- `MASK(key, p)` (R132): masking and unmasking are one function (R147). -/
def maskSeq (key : Key) (p : List Byte) : List Byte := unmask key p

/-- `CF16(b0, key, p)`: the client frame forced into the 16-bit class (R132). -/
def clientFrame16 (b0 : Byte) (key : Key) (p : List Byte) : List Byte :=
  b0 :: 0xFE :: hi8 p.length :: lo8 p.length :: (keyBytes key ++ maskSeq key p)

/-- `CF(b0, key, p)`: the client frame with the shortest length class (R132). -/
def clientFrame (b0 : Byte) (key : Key) (p : List Byte) : List Byte :=
  if p.length ≤ 125 then b0 :: BitVec.ofNat 8 (0x80 + p.length) :: (keyBytes key ++ maskSeq key p)
  else clientFrame16 b0 key p

end Sys2Proof.Machine
end

