-- ==== Sys2Proof/Machine/Functions.lean ====
section
/-! DEFINITION. The meanings of the function rows (R140 to R149, R175, R197, R210): "These functions read and write no state and
raise no error". The result is shown in the model's own field `result`; nothing else changes (log entry 14). -/

namespace Sys2Proof.Machine

/-- maskbit (R141). -/
def execMaskbit (b : Byte) (s : State) : Result := .next (s.withResult (.flag (maskbit b)))
/-- mark7 (R142). -/
def execMark7 (b : Byte) (s : State) : Result := .next (s.withResult (.marker (mark7 b)))
/-- be16 (R143). -/
def execBe16 (hi lo : Byte) (s : State) : Result := .next (s.withResult (.half (be16 hi lo)))
/-- hi8 (R144). -/
def execHi8 (n : Nat) (s : State) : Result := .next (s.withResult (.byte (hi8 n)))
/-- lo8 (R145). -/
def execLo8 (n : Nat) (s : State) : Result := .next (s.withResult (.byte (lo8 n)))
/-- unmask1 (R146). -/
def execUnmask1 (m : Byte) (key : Key) (i : Nat) (s : State) : Result := .next (s.withResult (.byte (unmask1 m key i)))
/-- unmask (R146). -/
def execUnmask (key : Key) (q : List Byte) (s : State) : Result := .next (s.withResult (.bytes (unmask key q)))
/-- isInline (R148). -/
def execIsInline (m : BitVec 7) (s : State) : Result := .next (s.withResult (.flag (isInline m)))
/-- isExt16 (R148). -/
def execIsExt16 (m : BitVec 7) (s : State) : Result := .next (s.withResult (.flag (isExt16 m)))
/-- isExt64 (R148). -/
def execIsExt64 (m : BitVec 7) (s : State) : Result := .next (s.withResult (.flag (isExt64 m)))
/-- fitsShort (R149). -/
def execFitsShort (n : Nat) (s : State) : Result := .next (s.withResult (.flag (fitsShort n)))
/-- fitsExt16 (R149). -/
def execFitsExt16 (n : Nat) (s : State) : Result := .next (s.withResult (.flag (fitsExt16 s.par.encMax n)))
/-- tooLarge (R149). -/
def execTooLarge (n : Nat) (s : State) : Result := .next (s.withResult (.flag (tooLarge s.par.encMax n)))
/-- Utf8Valid (R210), of the instance's parameter. -/
def execUtf8Valid (p : List Byte) (s : State) : Result := .next (s.withResult (.flag (utf8Valid s.par.text p)))
/-- decode (R175), under the instance's parameter. -/
def execDecodeFrame (bs : List Byte) (fail : Bool) (s : State) : Result :=
  .next (s.withResult (.outcome (frameDecode s.par.text bs fail)))
/-- encode (R197), under the instance's parameter. -/
def execEncodeMessage (p : List Byte) (s : State) : Result :=
  .next (s.withResult (.outcome (frameEncode s.par.encMax p)))

end Sys2Proof.Machine
end

