-- ==== Sys2Proof/Machine/Wire.lean ====
section
/-! DEFINITION. The meanings of the wire-form rows (30_encoding R101 to R126, R130): a header byte of a client frame is taken by the
decoder in the state that awaits it; a server frame header is built by the encoder for its length. Each row names the rule of the
step row that does it; elsewhere it changes nothing (log entry 10). -/

namespace Sys2Proof.Machine

/-- CF.B0.ANY (R101, R161). -/
def execCfB0Any (_b : Byte) (s : State) : Result := decRow (decide (s.dec.st = .b0)) s.dec.takeByte0 s

/-- CF.B1.UNMASKED (R109, R162). -/
def execCfB1Unmasked (_m : BitVec 7) (s : State) : Result := decRow (decide (s.dec.st = .b1)) s.dec.takeUnmasked s

/-- CF.B1.SHORT (R109, R164). -/
def execCfB1Short (m : BitVec 7) (s : State) : Result :=
  decRow (decide (s.dec.st = .b1) && isInline m) (s.dec.takeShort m) s

/-- CF.B1.EXT16 (R109, R165). -/
def execCfB1Ext16 (s : State) : Result := decRow (decide (s.dec.st = .b1)) s.dec.takeExt16 s

/-- CF.B1.EXT64 (R109, R166). -/
def execCfB1Ext64 (s : State) : Result := decRow (decide (s.dec.st = .b1)) s.dec.takeExt64 s

/-- SF.SHORT (R120, R191). -/
def execSfShort (n : BitVec 7) (s : State) : Result :=
  encRow (s.enc.st.accepts && fitsShort n.toNat) (s.enc.startShort n.toNat) s

/-- SF.EXT16 (R120, R192). -/
def execSfExt16 (n : Nat) (s : State) : Result :=
  encRow (s.enc.st.accepts && fitsExt16 s.par.encMax n) (s.enc.startExt16 n) s

/-- SF.TOOLARGE (R120, R193). -/
def execSfTooLarge (n : Nat) (s : State) : Result :=
  encRow (s.enc.st.accepts && tooLarge s.par.encMax n) s.enc.refuse s

end Sys2Proof.Machine
end

