-- ==== Sys2Proof/Machine/Dispatch.lean ====
section
/-! DEFINITION. The dispatch: one arm per row of the opcode table. -/

namespace Sys2Proof.Machine

def exec (i : Instr) (s : State) : Host.Outcome State Fault Refusal :=
  match i with
  | .cfB0Any b => Sys2Proof.Machine.execCfB0Any b s
  | .cfB1Unmasked m => Sys2Proof.Machine.execCfB1Unmasked m s
  | .cfB1Short m => Sys2Proof.Machine.execCfB1Short m s
  | .cfB1Ext16 => Sys2Proof.Machine.execCfB1Ext16 s
  | .cfB1Ext64 => Sys2Proof.Machine.execCfB1Ext64 s
  | .sfShort n => Sys2Proof.Machine.execSfShort n s
  | .sfExt16 n => Sys2Proof.Machine.execSfExt16 n s
  | .sfTooLarge n => Sys2Proof.Machine.execSfTooLarge n s
  | .decInvoke => Sys2Proof.Machine.execDecInvoke s
  | .decB0 b => Sys2Proof.Machine.execDecB0 b s
  | .decB1Unmasked b => Sys2Proof.Machine.execDecB1Unmasked b s
  | .decB1 b => Sys2Proof.Machine.execDecB1 b s
  | .decB1Short b => Sys2Proof.Machine.execDecB1Short b s
  | .decB1Ext16 => Sys2Proof.Machine.execDecB1Ext16 s
  | .decB1Ext64 => Sys2Proof.Machine.execDecB1Ext64 s
  | .decXh b => Sys2Proof.Machine.execDecXh b s
  | .decXl b => Sys2Proof.Machine.execDecXl b s
  | .decKey b => Sys2Proof.Machine.execDecKey b s
  | .decPay b => Sys2Proof.Machine.execDecPay b s
  | .decRxFail => Sys2Proof.Machine.execDecRxFail s
  | .decCheck => Sys2Proof.Machine.execDecCheck s
  | .decIgnore e => Sys2Proof.Machine.execDecIgnore e s
  | .decRead a => Sys2Proof.Machine.execDecRead a s
  | .encInvoke n => Sys2Proof.Machine.execEncInvoke n s
  | .encShort n => Sys2Proof.Machine.execEncShort n s
  | .encExt16 n => Sys2Proof.Machine.execEncExt16 n s
  | .encTooLarge n => Sys2Proof.Machine.execEncTooLarge n s
  | .encPay b => Sys2Proof.Machine.execEncPay b s
  | .encIgnore e => Sys2Proof.Machine.execEncIgnore e s
  | .encRead a => Sys2Proof.Machine.execEncRead a s
  | .reset => Sys2Proof.Machine.execReset s
  | .maskbit b => Sys2Proof.Machine.execMaskbit b s
  | .mark7 b => Sys2Proof.Machine.execMark7 b s
  | .be16 hi lo => Sys2Proof.Machine.execBe16 hi lo s
  | .hi8 n => Sys2Proof.Machine.execHi8 n s
  | .lo8 n => Sys2Proof.Machine.execLo8 n s
  | .unmask1 m key j => Sys2Proof.Machine.execUnmask1 m key j s
  | .unmask key q => Sys2Proof.Machine.execUnmask key q s
  | .isInline m => Sys2Proof.Machine.execIsInline m s
  | .isExt16 m => Sys2Proof.Machine.execIsExt16 m s
  | .isExt64 m => Sys2Proof.Machine.execIsExt64 m s
  | .fitsShort n => Sys2Proof.Machine.execFitsShort n s
  | .fitsExt16 n => Sys2Proof.Machine.execFitsExt16 n s
  | .tooLarge n => Sys2Proof.Machine.execTooLarge n s
  | .utf8Valid p => Sys2Proof.Machine.execUtf8Valid p s
  | .decodeFrame bs fail => Sys2Proof.Machine.execDecodeFrame bs fail s
  | .encodeMessage p => Sys2Proof.Machine.execEncodeMessage p s

end Sys2Proof.Machine
end

