-- ==== Sys2Proof/Machine/Ports.lean ====
section
/-! DEFINITION. The port-level realisation (10_state R31 to R34): which events a clock edge carries, and what the output ports show.
The event model is normative; an edge is the sequence of its events (log entry 19). -/

namespace Sys2Proof.Machine

/-- The decoder's events at an edge (R34). `DecInvoke` stands first: in the state before the edge it acts only where no read is
pending and no check is due. A byte offered together with `rx_fail` is taken first. -/
def edgeDecEvents (s : State) (p : PortsIn) : List Event :=
  (if p.decInvoke then [Event.dec .invoke] else []) ++
  (if s.rxReady && p.rxValid then [Event.dec (.rxByte p.rxData)]
   else if s.rxReady && p.rxFail then [Event.dec .rxFail]
   else if s.dec.st = .chk then [Event.dec .check]
   else [])

/-- The encoder's events at an edge (R34). -/
def edgeEncEvents (s : State) (p : PortsIn) : List Event :=
  (if p.encInvoke then [Event.enc (.invoke p.encN)] else []) ++
  (if s.plReady && p.plValid then [Event.enc (.plByte p.plData)] else [])

/-- The events at a rising edge; `rst = 1` is `Reset`, which has priority over every other event at that edge (R31). -/
def edgeEvents (s : State) (p : PortsIn) : List Event :=
  if p.rst then [.reset] else edgeDecEvents s p ++ edgeEncEvents s p

/-- The output ports (R32, R33). `dec_len` and the two read-data ports are none where the spec gives them no meaning. -/
structure PortsOut where
  rxReady    : Bool
  decBusy    : Bool
  decDone    : Bool
  decErr     : Bool
  decErrCode : BitVec 3
  decLen     : Option (BitVec 16)
  decRdData  : Option Byte
  plReady    : Bool
  encBusy    : Bool
  encDone    : Bool
  encErr     : Bool
  encErrCode : BitVec 3
  encTot     : BitVec 17
  encRdData  : Option Byte
  fatal      : Bool
  deriving DecidableEq, Repr

/-- What the output ports show, for the values on the two read-address ports. -/
def portsOut (s : State) (decRdAddr : BitVec 16) (encRdAddr : BitVec 17) : PortsOut :=
  { rxReady := s.rxReady, decBusy := s.decBusy, decDone := s.decDone, decErr := s.decErr, decErrCode := s.dec.err.code
    decLen := if s.decDone then some s.dec.len else none
    decRdData := if s.dec.inWindow decRdAddr.toNat then Memory.read s.dec.buf decRdAddr.toNat else none
    plReady := s.plReady, encBusy := s.encBusy, encDone := s.encDone, encErr := s.encErr, encErrCode := s.enc.err.code
    encTot := s.enc.tot
    encRdData := if s.enc.inWindow encRdAddr.toNat then Memory.read s.enc.buf encRdAddr.toNat else none
    fatal := s.fatal }

end Sys2Proof.Machine
end

