-- ==== Sys2Proof/Machine/Select.lean ====
section
/-! DEFINITION. Which step row an event selects in a state: the transition tables R178 and R201. Every pair (state, event) selects
exactly one row; a pair no rule names selects the unit's IGNORE row (R173, R195). -/

namespace Sys2Proof.Machine

/-- `RxByte(b)` in `D_B1` (R162 to R166); the mask bit is tested before the marker (R229). -/
def selectByte1 (b : Byte) : Instr :=
  if maskbit b then
    if isInline (mark7 b) then .decB1Short b
    else if isExt16 (mark7 b) then .decB1Ext16
    else .decB1Ext64
  else .decB1Unmasked b

/-- The row of an inbound byte (R161 to R170, R173). -/
def selectRxByte (st : DecSt) (b : Byte) : Instr :=
  match st with
  | .idle => .decIgnore (.rxByte b)
  | .b0 => .decB0 b
  | .b1 => selectByte1 b
  | .xh => .decXh b
  | .xl => .decXl b
  | .key => .decKey b
  | .pay => .decPay b
  | .chk => .decIgnore (.rxByte b)
  | .done => .decIgnore (.rxByte b)
  | .err => .decIgnore (.rxByte b)

/-- The row of a decoder event (R178). -/
def selectDec (st : DecSt) (e : DecEvent) : Instr :=
  match e with
  | .invoke => if st.accepts then .decInvoke else .decIgnore .invoke
  | .rxByte b => selectRxByte st b
  | .rxFail => if st.awaiting then .decRxFail else .decIgnore .rxFail
  | .check => if st = .chk then .decCheck else .decIgnore .check

/-- The row of an encoder event (R201). -/
def selectEnc (max : Config.EncMax) (st : EncSt) (e : EncEvent) : Instr :=
  match e with
  | .invoke n =>
    if st.accepts then
      if fitsShort n then .encShort n
      else if fitsExt16 max n then .encExt16 n
      else .encTooLarge n
    else .encIgnore (.invoke n)
  | .plByte b => if st = .pay then .encPay b else .encIgnore (.plByte b)

/-- The row an event selects (R19, R178, R201). -/
def select (s : State) (e : Event) : Instr :=
  match e with
  | .reset => .reset
  | .dec d => selectDec s.dec.st d
  | .enc n => selectEnc s.par.encMax s.enc.st n
  | .decRead i => .decRead i
  | .encRead i => .encRead i

end Sys2Proof.Machine
end

