-- ==== Sys2Proof/Machine/Fetch.lean ====
section
/-! DEFINITION. What the machine does next. The block has no program counter (R53): what runs is chosen by what the environment
presents and by the units' states (log entries 1 and 18). -/

namespace Sys2Proof.Machine

/-- What the next step is. -/
inductive Fetched where
  /-- Run the row in the state in which what selected it has been taken from the environment. -/
  | run (i : Instr) (s : State)
  /-- No row runs; the environment moves on. -/
  | pass (s : State)
  /-- What the host presents is no wire form. -/
  | reject (e : DecodeError)
  deriving DecidableEq, Repr

/-- `s` with this inbox. -/
def State.withInbox (s : State) (inbox : List Stim) : State := s.withEnv { s.env with inbox := inbox }
/-- `s` with these bytes in `RX`. -/
def State.withRx (s : State) (rx : List Byte) : State := s.withEnv { s.env with rx := rx }
/-- `s` with these bytes in `PL`. -/
def State.withPl (s : State) (pl : List Byte) : State := s.withEnv { s.env with pl := pl }

/-- The unit takes part in no frame: the host that waits for it goes on (R271). -/
def State.unitFinished (s : State) (u : UnitId) : Bool :=
  match u with
  | .decoder => !s.decBusy
  | .encoder => !s.encBusy

/-- The encoder takes the next byte of `PL` if it awaits one (R74); otherwise nothing can move and time passes (R274, R278). -/
def fetchPl (s : State) : Fetched :=
  if s.plReady then
    match s.env.pl with
    | [] => .pass s
    | b :: pl => .run (select s (.enc (.plByte b))) (s.withPl pl)
  else .pass s

/-- The decoder takes the next byte of `RX`, or the failure, if a read is pending (R71, R87). DESIGN CHOICE: where both units can
move, the decoder's `RxByte` or `RxFail` comes before the encoder's `PlByte`; the spec fixes no order between them (R83 d, R243; log
entry 25). -/
def fetchRx (s : State) : Fetched :=
  if s.rxReady then
    match s.env.rx with
    | [] => if s.env.rxFail then .run (select s (.dec .rxFail)) s else fetchPl s
    | b :: rx => .run (select s (.dec (.rxByte b))) (s.withRx rx)
  else fetchPl s

/-- What moves while the host does nothing: the check is always enabled in `D_CHK` (R280), then the streams. DESIGN CHOICE: the
check comes before the encoder's `PlByte` too (log entries 18 and 25). -/
def fetchFree (s : State) : Fetched :=
  if s.dec.st = .chk then .run (select s (.dec .check)) s else fetchRx s

/-- A wire form is run if its bytes decode to a well-formed row. -/
def fetchWire (d : Decoded) (s : State) : Fetched :=
  match d with
  | .ok i => .run i s
  | .error e => .reject e

/-- What the next step is. -/
def fetch (s : State) : Fetched :=
  match s.env.inbox with
  | [] => fetchFree s
  | .event e :: rest => .run (select s e) (s.withInbox rest)
  | .edge p :: rest => .pass (s.withInbox ((edgeEvents s p).map Stim.event ++ rest))
  | .wire p bs :: rest => fetchWire (decode p bs) (s.withInbox rest)
  | .apply i :: rest => .run i (s.withInbox rest)
  | .await u :: rest => if s.unitFinished u then .pass (s.withInbox rest) else fetchFree s

/-- `s` in which the wire form at `pos` is the next thing its unit can take: the decoder awaits header byte 0 or 1, the encoder
can be invoked. -/
def State.readyFor (s : State) (pos : WirePos) : State :=
  match pos with
  | .cfByte0 => s.withDec { s.dec with st := .b0 }
  | .cfByte1 => s.withDec { s.dec with st := .b1 }
  | .sfHeader => if s.enc.st.accepts then s else s.withEnc { s.enc with st := .idle }

/-- `s` in which the bytes of a wire form are what the host presents next, and the unit can take them. -/
def State.withWire (s : State) (w : WirePos × List Byte) : State :=
  (s.readyFor w.1).withInbox (.wire w.1 w.2 :: s.env.inbox)

end Sys2Proof.Machine
end

