-- ==== Sys2Proof/Machine/Step.lean ====
section
/-! DEFINITION. One step: what `fetch` chose is run by `exec`. -/

namespace Sys2Proof.Machine

/-- One step of the machine. Where nothing can move the machine waits: the next state is the same state (R20, R278). -/
def step (s : State) : Host.Outcome State Fault Refusal :=
  match fetch s with
  | .run i t => exec i t
  | .pass t => .next t
  | .reject e => .refused (.badWire e)

/-- `s` in which the table word `w` of `nbits` bits is the wire form the host presents next, with the unit it belongs to in the
state that can take it (log entry 13). -/
def State.withFetchWord (s : State) (nbits w : Nat) : State := s.withWire (tableBytes nbits w)

end Sys2Proof.Machine
end

