-- ==== Sys2Proof/Safety.lean ====
section
/-! DEFINITION. The terms claims are stated in: what stays unchanged, delivering events, the invariants that hold in every state a
run reaches, and what of a unit has a value (the validity windows of 10_state). -/

namespace Sys2Proof.Machine

/-- Nothing but the decoder unit differs. -/
def OnlyDec (s t : State) : Prop := t.enc = s.enc ∧ t.par = s.par ∧ t.env = s.env ∧ t.result = s.result

/-- Nothing but the encoder unit differs. -/
def OnlyEnc (s t : State) : Prop := t.dec = s.dec ∧ t.par = s.par ∧ t.env = s.env ∧ t.result = s.result

/-- No register of the decoder and no byte of `DEC_BUF` differs (the model's own fields `free` and `rd` may). -/
def SameDecRegs (d u : Dec) : Prop :=
  u.st = d.st ∧ u.mark = d.mark ∧ u.lenHi = d.lenHi ∧ u.lenLo = d.lenLo ∧ u.kidx = d.kidx ∧ u.key = d.key ∧ u.idx = d.idx ∧
  u.err = d.err ∧ u.buf = d.buf

/-- No register of the encoder and no byte of `ENC_BUF` differs (the model's own fields `free` and `rd` may). -/
def SameEncRegs (e u : Enc) : Prop :=
  u.st = e.st ∧ u.n = e.n ∧ u.hlen = e.hlen ∧ u.idx = e.idx ∧ u.tot = e.tot ∧ u.err = e.err ∧ u.buf = e.buf

/-- An event is delivered: the row it selects runs (R19). -/
def deliver (e : Event) (s : State) : Result := exec (select s e) s

/-- Events are delivered one after the other, as long as the machine goes on. -/
def deliverAll : List Event → State → Result
  | [], s => .next s
  | e :: es, s =>
    match deliver e s with
    | .next t => deliverAll es t
    | .fault r => .fault r
    | .refused r => .refused r

/-- `RX: <bytes>` or `RX: <bytes> FAIL` as events (R131). -/
def rxEvents (bs : List Byte) (fail : Bool) : List Event :=
  bs.map (fun b => Event.dec (.rxByte b)) ++ (if fail then [Event.dec .rxFail] else [])

/-- The payload bytes of `ENCODE n: <bytes>` as events (R131). -/
def plEvents (p : List Byte) : List Event := p.map fun b => Event.enc (.plByte b)

/-- The host presents nothing, or waits for a unit that is still busy (log entry 20). -/
def State.HostWaits (s : State) : Prop :=
  s.env.inbox = [] ∨ ∃ u rest, s.env.inbox = .await u :: rest ∧ s.unitFinished u = false

/-- What holds of the decoder unit in every state a run reaches. -/
structure Dec.Inv (rule : Config.TextRule) (d : Dec) : Prop where
  /-- `DEC_BUF` is in canonical form. -/
  bufWf : Memory.wf d.buf = true
  /-- Only existing indices of `DEC_BUF` are listed (R72). -/
  bufRange : ∀ c ∈ d.buf, c.1 < Config.decCap
  /-- `DEC_ERR` is 0 exactly outside `D_ERR` (R42). -/
  errIff : d.err = .none ↔ d.st ≠ .err
  /-- `DEC_ERR` never is the encoder's code (R221). -/
  errKind : d.err ≠ .messageTooLarge
  /-- The extended length is read for marker 126 only (R103). -/
  ext : d.st = .xh ∨ d.st = .xl → d.mark.toNat = Config.markExt16
  /-- From the key on, the marker is a length or 126, and a length is `DEC_LEN` (R108). -/
  marker : d.st = .key ∨ d.st = .pay ∨ d.st = .chk ∨ d.st = .done →
    d.mark.toNat ≤ Config.markExt16 ∧ (d.mark.toNat ≤ Config.markInlineMax → d.len.toNat = d.mark.toNat)
  /-- Before the payload no byte of `DEC_BUF` has a value (R160). -/
  fresh : d.st = .b0 ∨ d.st = .b1 ∨ d.st = .xh ∨ d.st = .xl ∨ d.st = .key → d.buf = []
  /-- In `D_PAY` a payload byte is due (R170). -/
  pay : d.st = .pay → d.idx.toNat < d.len.toNat
  /-- After the payload the index is the length (R170). -/
  full : d.st = .chk ∨ d.st = .done → d.idx.toNat = d.len.toNat
  /-- The bytes of `DEC_BUF` that have a value are those below `DEC_IDX` (R72). -/
  filled : d.st = .pay ∨ d.st = .chk ∨ d.st = .done → d.buf.map Prod.fst = List.range d.idx.toNat
  /-- A delivered payload passed the text check (R174). -/
  text : d.st = .done → utf8Valid rule d.payload = true

/-- What holds of the encoder unit in every state a run reaches. -/
structure Enc.Inv (max : Config.EncMax) (e : Enc) : Prop where
  /-- `ENC_BUF` is in canonical form. -/
  bufWf : Memory.wf e.buf = true
  /-- Only existing indices of `ENC_BUF` are listed (R73). -/
  bufRange : ∀ c ∈ e.buf, c.1 < Config.encCap max
  /-- `ENC_ERR` is 0 exactly outside `E_ERR` (R49). -/
  errIff : e.err = .none ↔ e.st ≠ .err
  /-- `ENC_ERR` takes only the values 0 and 2 (R221). -/
  errKind : e.err = .none ∨ e.err = .messageTooLarge
  /-- `ENC_TOT` is 0 in every state but `E_DONE` (R48). -/
  tot : e.st ≠ .done → e.tot = 0
  /-- `ENC_TOT` is `ENC_HLEN + ENC_N` in `E_DONE` (R48). -/
  totDone : e.st = .done → e.tot.toNat = e.hlen.toNat + e.n.toNat
  /-- `ENC_N` is an accepted length (R45). -/
  len : e.st = .pay ∨ e.st = .done → e.n.toNat ≤ max.val
  /-- `ENC_HLEN` is 2 or 4, by the length class (R46). -/
  hlen : e.st = .pay ∨ e.st = .done → e.hlen.toNat = if e.n.toNat ≤ Config.markInlineMax then 2 else 4
  /-- In `E_PAY` a payload byte is due (R194). -/
  pay : e.st = .pay → e.idx.toNat < e.n.toNat
  /-- After the payload the index is the length (R194). -/
  full : e.st = .done → e.idx.toNat = e.n.toNat
  /-- The bytes of `ENC_BUF` that have a value are the header and the payload so far (R73). -/
  filled : e.st = .pay ∨ e.st = .done → e.buf.map Prod.fst = List.range (e.hlen.toNat + e.idx.toNat)
  /-- The first two header bytes (R121, R122). -/
  head : e.st = .pay ∨ e.st = .done → Memory.read e.buf 0 = some 0x81 ∧
    Memory.read e.buf 1 = some (if e.n.toNat ≤ Config.markInlineMax then lo8 e.n.toNat else 0x7E)
  /-- The extended length, where there is one (R123). -/
  headExt : e.st = .pay ∨ e.st = .done → Config.markInlineMax < e.n.toNat →
    Memory.read e.buf 2 = some (hi8 e.n.toNat) ∧ Memory.read e.buf 3 = some (lo8 e.n.toNat)

/-- What holds in every state a run reaches. -/
structure State.Inv (s : State) : Prop where
  dec : s.dec.Inv s.par.text
  enc : s.enc.Inv s.par.encMax

/-- What of the decoder unit has a value, by the validity windows of R36 to R43; a part without a value is none. -/
structure DecView where
  st    : DecSt
  err   : ErrCode
  mark  : Option (BitVec 7)
  lenHi : Option Byte
  lenLo : Option Byte
  kidx  : Option (BitVec 2)
  key   : List Byte
  idx   : Option (BitVec 16)
  bytes : List (Option Byte)
  free  : Nat
  rd    : Option Byte
  deriving DecidableEq, Repr

/-- `x` where the condition holds. -/
def valid {α : Type} (c : Bool) (x : α) : Option α := if c then some x else none

/-- The first `k` bytes of a buffer. -/
def firstBytes (m : Memory) (k : Nat) : List (Option Byte) := (List.range k).map (Memory.read m)

/-- In `D_ERR` the marker still has its value (R37: "until the next DecInvoke or Reset") where the error came after R163; the code
tells so for errors 1 and 3. -/
def Dec.markKept (d : Dec) : Bool := d.st == .err && (d.err == .unsupportedFrameSize || d.err == .invalidEncoding)

/-- In `D_ERR` the length still has its value (R38) where the error came after it was complete; the code tells so for error 3. -/
def Dec.lenKept (d : Dec) : Bool := d.st == .err && d.err == .invalidEncoding

/-- The decoder unit seen through its validity windows (R37 to R43). -/
def Dec.view (d : Dec) : DecView :=
  { st := d.st
    err := d.err
    mark := valid (d.st == .xh || d.st == .xl || d.st == .key || d.st == .pay || d.st == .chk || d.st == .done || d.markKept) d.mark
    lenHi := valid (d.st == .xl || d.st == .key || d.st == .pay || d.st == .chk || d.st == .done || d.lenKept) d.lenHi
    lenLo := valid (d.st == .key || d.st == .pay || d.st == .chk || d.st == .done || d.lenKept) d.lenLo
    kidx := valid (d.st == .key) d.kidx
    key := if d.st = .key then (keyBytes d.key).take d.kidx.toNat else if d.st = .pay then keyBytes d.key else []
    idx := valid (d.st == .pay || d.st == .chk) d.idx
    bytes := if d.st = .pay then firstBytes d.buf d.idx.toNat
      else if d.st = .chk ∨ d.st = .done then firstBytes d.buf d.len.toNat else []
    free := d.free
    rd := d.rd }

/-- What of the encoder unit has a value, by the validity windows of R44 to R50. -/
structure EncView where
  st    : EncSt
  err   : ErrCode
  n     : Option (BitVec 17)
  hlen  : Option (BitVec 3)
  idx   : Option (BitVec 17)
  tot   : BitVec 17
  bytes : List (Option Byte)
  free  : Nat
  rd    : Option Byte
  deriving DecidableEq, Repr

/-- The encoder unit seen through its validity windows (R44 to R50). -/
def Enc.view (e : Enc) : EncView :=
  { st := e.st
    err := e.err
    n := valid (e.st == .pay || e.st == .done) e.n
    hlen := valid (e.st == .pay || e.st == .done) e.hlen
    idx := valid (e.st == .pay) e.idx
    tot := e.tot
    bytes := if e.st = .pay then firstBytes e.buf e.payAddr else if e.st = .done then firstBytes e.buf e.tot.toNat else []
    free := e.free
    rd := e.rd }

/-- A group of bytes matches a row of R211's table, byte by byte. -/
def RowMatches (row : List (Nat × Nat)) (g : List Byte) : Prop :=
  List.Forall₂ (fun (r : Nat × Nat) (b : Byte) => r.1 ≤ b.toNat ∧ b.toNat ≤ r.2) row g

end Sys2Proof.Machine
end

