-- ==== Sys2Proof/Certificates/Slice0/Obligations.lean ====
section
/-! DEFINITION. The statements. Each docstring names the rule or section of the spec it formalises, or the model's choice (log entry). -/

open Sys2Proof Sys2Proof.Machine

/-! Wire forms: encoding. -/

/-- Words written out from the encodings of R101, R102, R109, R121 to R123 and R126. -/
def Obligations.SpecWordsDecode : Prop :=
  decode .cfByte0 [0x81] = .ok (.cfB0Any 0x81) ∧
  decode .cfByte1 [0x05] = .ok (.cfB1Unmasked 5) ∧
  decode .cfByte1 [0x85] = .ok (.cfB1Short 5) ∧
  decode .cfByte1 [0xFD] = .ok (.cfB1Short 125) ∧
  decode .cfByte1 [0xFE] = .ok .cfB1Ext16 ∧
  decode .cfByte1 [0xFF] = .ok .cfB1Ext64 ∧
  decode .sfHeader [0x81, 0x02] = .ok (.sfShort 2) ∧
  decode .sfHeader [0x81, 0x7E, 0x01, 0x2C] = .ok (.sfExt16 300) ∧
  decode .sfHeader [0x81, 0x7F] = .error .ext64ServerFrame ∧
  decode .sfHeader [0x01, 0x02] = .error .notServerFrame ∧
  decode .sfHeader [0x81, 0x82] = .error .maskedServerFrame

/-- The four rows of R109: byte 1 by the mask bit and the marker together. -/
def Obligations.HeaderByteOneForms : Prop :=
  ∀ b : Byte,
    (b.toNat ≤ 0x7F → ∃ m, decode .cfByte1 [b] = .ok (.cfB1Unmasked m) ∧ m.toNat = b.toNat) ∧
    (0x80 ≤ b.toNat → b.toNat ≤ 0xFD → ∃ m, decode .cfByte1 [b] = .ok (.cfB1Short m) ∧ m.toNat = b.toNat - 128) ∧
    (b = 0xFE → decode .cfByte1 [b] = .ok .cfB1Ext16) ∧
    (b = 0xFF → decode .cfByte1 [b] = .ok .cfB1Ext64)

/-- Decoding the encoding of a well-formed row gives the row back, with every operand at every value its encoding admits (R101,
R102, R109, R120 to R123). -/
def Obligations.DecodeOfEncode : Prop :=
  ∀ (i : Instr) (p : WirePos) (bs : List Byte), i.wf = true → encode i = some (p, bs) → decode p bs = .ok i

/-- Bytes that decode are the encoding of what they decode to, and that is well formed: each wire form has one meaning. -/
def Obligations.EncodeOfDecode : Prop :=
  ∀ (p : WirePos) (bs : List Byte) (i : Instr), decode p bs = .ok i → encode i = some (p, bs) ∧ i.wf = true

/-- A header byte run as the wire form it decodes to does what the event that supplies it does (R130: the rows name the same rules). -/
def Obligations.WireFormsRunTheirSteps : Prop :=
  ∀ (s : State) (b : Byte) (i : Instr),
    (s.dec.st = .b0 → decode .cfByte0 [b] = .ok i → exec i s = deliver (.dec (.rxByte b)) s) ∧
    (s.dec.st = .b1 → decode .cfByte1 [b] = .ok i → exec i s = deliver (.dec (.rxByte b)) s)

/-! The step. -/

/-- What the environment presents is what runs (log entries 1, 13, 14, 18, 20 and 25): an event runs the row it selects, bytes of a
wire form run the row they decode to and are refused under the decoder's reason where they decode to none, an edge becomes its
events. While the host presents nothing or waits for a unit, the check of `D_CHK` runs, else the decoder takes the next byte of `RX`
or the failure if it awaits one, else the encoder takes the next byte of `PL` if it awaits one, else the machine waits. The order of
the two units while the host waits is the model's choice (log entries 18 and 25). -/
def Obligations.StepRunsTheDecodedRow : Prop :=
  ∀ s : State,
    (∀ e rest, s.env.inbox = .event e :: rest →
      step s = exec (select s e) { s with env := { s.env with inbox := rest } }) ∧
    (∀ p bs i rest, s.env.inbox = .wire p bs :: rest → decode p bs = .ok i →
      step s = exec i { s with env := { s.env with inbox := rest } }) ∧
    (∀ p bs e rest, s.env.inbox = .wire p bs :: rest → decode p bs = .error e → step s = .refused (.badWire e)) ∧
    (∀ i rest, s.env.inbox = .apply i :: rest → step s = exec i { s with env := { s.env with inbox := rest } }) ∧
    (∀ p rest, s.env.inbox = .edge p :: rest →
      step s = .next { s with env := { s.env with inbox := (edgeEvents s p).map Stim.event ++ rest } }) ∧
    (∀ u rest, s.env.inbox = .await u :: rest → s.unitFinished u = true →
      step s = .next { s with env := { s.env with inbox := rest } }) ∧
    (s.HostWaits → s.dec.st = .chk → step s = exec .decCheck s) ∧
    (∀ b rx, s.HostWaits → s.rxReady = true → s.env.rx = b :: rx →
      step s = exec (select s (.dec (.rxByte b))) { s with env := { s.env with rx := rx } }) ∧
    (s.HostWaits → s.rxReady = true → s.env.rx = [] → s.env.rxFail = true → step s = exec .decRxFail s) ∧
    (∀ b pl, s.HostWaits → s.dec.st ≠ .chk → (s.rxReady = true → s.env.rx = [] ∧ s.env.rxFail = false) →
      s.plReady = true → s.env.pl = b :: pl → step s = exec (.encPay b) { s with env := { s.env with pl := pl } }) ∧
    (s.HostWaits → s.dec.st ≠ .chk → (s.rxReady = true → s.env.rx = [] ∧ s.env.rxFail = false) →
      (s.plReady = true → s.env.pl = []) → step s = .next s)

/-! Utility functions. -/

/-- maskbit, be16, hi8, lo8 (R141, R143, R144, R145). -/
def Obligations.ByteUtilities : Prop :=
  ∀ (s : State) (b hi lo : Byte) (n : Nat),
    exec (.maskbit b) s = .next { s with result := some (.flag (b.getLsbD 7)) } ∧ (b.getLsbD 7 = true ↔ 128 ≤ b.toNat) ∧
    (∃ v : BitVec 16, exec (.be16 hi lo) s = .next { s with result := some (.half v) } ∧ v.toNat = hi.toNat * 256 + lo.toNat ∧
      v.extractLsb' 8 8 = hi ∧ v.extractLsb' 0 8 = lo) ∧
    (∃ v : Byte, exec (.hi8 n) s = .next { s with result := some (.byte v) } ∧ v.toNat = n / 256 % 256 ∧
      v = (BitVec.ofNat 32 n).extractLsb' 8 8) ∧
    (∃ v : Byte, exec (.lo8 n) s = .next { s with result := some (.byte v) } ∧ v.toNat = n % 256 ∧
      v = (BitVec.ofNat 32 n).extractLsb' 0 8)

/-- mark7 (R142), where it is defined; it equals the low seven bits. -/
def Obligations.MarkerExtraction : Prop :=
  ∀ (s : State) (b : Byte), 128 ≤ b.toNat →
    ∃ m : BitVec 7, exec (.mark7 b) s = .next { s with result := some (.marker m) } ∧ m.toNat = b.toNat - 128 ∧
      m = b.extractLsb' 0 7

/-- unmask1 and unmask (R146). -/
def Obligations.UnmaskingIsXorWithTheRepeatedKey : Prop :=
  ∀ (s : State) (key : Key) (m : Byte) (q : List Byte) (i : Nat),
    (∃ v : Byte, exec (.unmask1 m key i) s = .next { s with result := some (.byte v) } ∧
      [key.k0, key.k1, key.k2, key.k3][i % 4]?.map (m ^^^ ·) = some v) ∧
    (∃ r : List Byte, exec (.unmask key q) s = .next { s with result := some (.bytes r) } ∧ r.length = q.length ∧
      ∀ j (h : j < q.length), [key.k0, key.k1, key.k2, key.k3][j % 4]?.map (q[j] ^^^ ·) = r[j]?)

/-- The XOR laws, and that masking and unmasking undo each other (R147). -/
def Obligations.MaskingAndUnmaskingAreInverse : Prop :=
  (∀ a k : Byte, (a ^^^ k) ^^^ k = a ∧ a ^^^ 0 = a ∧ a ^^^ a = 0 ∧ a ^^^ k = k ^^^ a) ∧
  (∀ a b c : Byte, (a ^^^ b) ^^^ c = a ^^^ (b ^^^ c)) ∧
  (∀ (key : Key) (p : List Byte), unmask key (maskSeq key p) = p) ∧
  (∀ (key : Key) (q : List Byte), maskSeq key (unmask key q) = q)

/-- The marker classes; exactly one holds of every marker (R148). -/
def Obligations.MarkerClasses : Prop :=
  ∀ (s : State) (m : BitVec 7), ∃ x y z : Bool,
    exec (.isInline m) s = .next { s with result := some (.flag x) } ∧ (x = true ↔ m.toNat ≤ 125) ∧
    exec (.isExt16 m) s = .next { s with result := some (.flag y) } ∧ (y = true ↔ m.toNat = 126) ∧
    exec (.isExt64 m) s = .next { s with result := some (.flag z) } ∧ (z = true ↔ m.toNat = 127) ∧
    ((x = true ∧ y = false ∧ z = false) ∨ (x = false ∧ y = true ∧ z = false) ∨ (x = false ∧ y = false ∧ z = true))

/-- The length classes under either `ENC_MAX_N`; exactly one holds of every length, whatever its width (R149). -/
def Obligations.OutboundLengthClasses : Prop :=
  ∀ (s : State) (n : Nat), ∃ x y z : Bool,
    exec (.fitsShort n) s = .next { s with result := some (.flag x) } ∧ (x = true ↔ n ≤ 125) ∧
    exec (.fitsExt16 n) s = .next { s with result := some (.flag y) } ∧ (y = true ↔ 125 < n ∧ n ≤ s.par.encMax.val) ∧
    exec (.tooLarge n) s = .next { s with result := some (.flag z) } ∧ (z = true ↔ s.par.encMax.val < n) ∧
    ((x = true ∧ y = false ∧ z = false) ∨ (x = false ∧ y = true ∧ z = false) ∨ (x = false ∧ y = false ∧ z = true))

/-- `Utf8Valid` is total, depends on `p` alone under one parameter, and is true of the empty sequence (R210); the row shows the
predicate that DEC.CHECK applies (`TextCheckDecidesTheFrame`). -/
def Obligations.TextCheckIsTotalAndAcceptsEmpty : Prop :=
  ∀ (p : List Byte) (s : State), ∃ v : Bool,
    exec (.utf8Valid p) s = .next { s with result := some (.flag v) } ∧ v = utf8Valid s.par.text p ∧ (p = [] → v = true) ∧
    ∀ u : State, u.par.text = s.par.text → exec (.utf8Valid p) u = .next { u with result := some (.flag v) }

/-- The default `Utf8Valid` accepts exactly the concatenations of groups that match a row of R211's table. -/
def Obligations.DefaultTextCheckIsTheTable : Prop :=
  ∀ p : List Byte, utf8Valid .standard p = true ↔
    ∃ gs : List (List Byte), p = gs.flatten ∧ ∀ g ∈ gs, ∃ row ∈
      [ [(0x00, 0x7F)],
        [(0xC2, 0xDF), (0x80, 0xBF)],
        [(0xE0, 0xE0), (0xA0, 0xBF), (0x80, 0xBF)],
        [(0xE1, 0xEC), (0x80, 0xBF), (0x80, 0xBF)],
        [(0xED, 0xED), (0x80, 0x9F), (0x80, 0xBF)],
        [(0xEE, 0xEF), (0x80, 0xBF), (0x80, 0xBF)],
        [(0xF0, 0xF0), (0x90, 0xBF), (0x80, 0xBF), (0x80, 0xBF)],
        [(0xF1, 0xF3), (0x80, 0xBF), (0x80, 0xBF), (0x80, 0xBF)],
        [(0xF4, 0xF4), (0x80, 0x8F), (0x80, 0xBF), (0x80, 0xBF)] ], RowMatches row g

/-- The encode row (42_frame_encoder, message-level summary). -/
def Obligations.EncodeRowBuildsTheFrame : Prop :=
  ∀ (s : State) (p : List Byte),
    exec (.encodeMessage p) s = .next { s with result := some (.outcome (
      if p.length ≤ 125 then .ok ([0x81, BitVec.ofNat 8 p.length] ++ p)
      else if p.length ≤ s.par.encMax.val then
        .ok ([0x81, 0x7E, BitVec.ofNat 8 (p.length / 256), BitVec.ofNat 8 p.length] ++ p)
      else .error .messageTooLarge)) }

/-- The decode row (41_frame_decoder section 7): the client frame of `p`, in either length class, with any byte 0, any key, and
whatever the transport does after it, gives `p` back or `InvalidEncoding`; every proper prefix gives a wait, or `TransportFailure`
where the transport fails; a refused header byte 1 gives its error whatever follows. -/
def Obligations.DecodeRowGivesEveryOutcome : Prop :=
  ∀ (s : State) (b0 b1 : Byte) (key : Key) (p after : List Byte) (fail : Bool) (frame : List Byte),
    (p.length ≤ 65535 → frame = clientFrame b0 key p ∨ frame = clientFrame16 b0 key p →
      exec (.decodeFrame (frame ++ after) fail) s = .next { s with result := some (.outcome
        (if utf8Valid s.par.text p = true then .ok p else .error .invalidEncoding)) } ∧
      ∀ k, k < frame.length → exec (.decodeFrame (frame.take k) fail) s = .next { s with result := some (.outcome
        (if fail = true then .error .transportFailure else .wait)) }) ∧
    (b1.toNat < 128 → exec (.decodeFrame (b0 :: b1 :: after) fail) s = .next { s with result := some (.outcome
      (.error .unmaskedFrame)) }) ∧
    (b1 = 0xFF → exec (.decodeFrame (b0 :: b1 :: after) fail) s = .next { s with result := some (.outcome
      (.error .unsupportedFrameSize)) })

/-! The decoder. -/

/-- DEC.INVOKE (R160). -/
def Obligations.InvokeStartsAFrame : Prop :=
  ∀ s : State,
    (s.dec.st = .idle ∨ s.dec.st = .done →
      ∃ t, exec .decInvoke s = .next t ∧ t.dec.st = .b0 ∧ (∀ a, Memory.read t.dec.buf a = none) ∧ t.dec.err = s.dec.err ∧
        t.decDone = false ∧ t.decBusy = true ∧ t.rxReady = true ∧ OnlyDec s t) ∧
    (s.dec.st ≠ .idle → s.dec.st ≠ .done → exec .decInvoke s = .next s)

/-- DEC.B0 and CF.B0.ANY (R161): every byte is taken alike and stored nowhere. -/
def Obligations.HeaderByteZeroIsDropped : Prop :=
  ∀ (s : State) (b : Byte), s.dec.st = .b0 →
    exec (.decB0 b) s = .next { s with dec := { s.dec with st := .b1 } } ∧
    exec (.cfB0Any b) s = .next { s with dec := { s.dec with st := .b1 } } ∧
    deliver (.dec (.rxByte b)) s = .next { s with dec := { s.dec with st := .b1 } }

/-- DEC.B1.UNMASKED and CF.B1.UNMASKED (R162): the mask bit is tested before the marker, `0x7F` included. -/
def Obligations.UnmaskedFrameIsRaised : Prop :=
  ∀ (s : State) (b : Byte), s.dec.st = .b1 → b.toNat < 128 →
    exec (.decB1Unmasked b) s = .next { s with dec := { s.dec with err := .unmaskedFrame, st := .err } } ∧
    exec (.cfB1Unmasked (b.setWidth 7)) s = .next { s with dec := { s.dec with err := .unmaskedFrame, st := .err } } ∧
    deliver (.dec (.rxByte b)) s = .next { s with dec := { s.dec with err := .unmaskedFrame, st := .err } }

/-- DEC.B1 (R163): the marker is latched, then exactly one of R164, R165, R166 follows in the same step. -/
def Obligations.HeaderByteOneLatchesTheMarker : Prop :=
  ∀ (s : State) (b : Byte), s.dec.st = .b1 → 128 ≤ b.toNat →
    ∃ t, exec (.decB1 b) s = .next t ∧ t.dec.mark.toNat = b.toNat - 128 ∧
      (b.toNat - 128 ≤ 125 → exec (.decB1Short b) s = .next t) ∧
      (b.toNat - 128 = 126 → exec .decB1Ext16 s = .next t) ∧
      (b.toNat - 128 = 127 → exec .decB1Ext64 s = .next t) ∧
      deliver (.dec (.rxByte b)) s = .next t

/-- DEC.B1.SHORT and CF.B1.SHORT (R164): the marker is the payload length. -/
def Obligations.InlineMarkerIsTheLength : Prop :=
  ∀ (s : State) (b : Byte), s.dec.st = .b1 → 0x80 ≤ b.toNat → b.toNat ≤ 0xFD →
    ∃ t, exec (.decB1Short b) s = .next t ∧ exec (.cfB1Short (b.setWidth 7)) s = .next t ∧
      t = { s with dec := { s.dec with mark := BitVec.ofNat 7 (b.toNat - 128), lenHi := 0, lenLo := BitVec.ofNat 8 (b.toNat - 128),
                                       kidx := 0, st := .key } } ∧
      t.dec.len.toNat = b.toNat - 128

/-- DEC.B1.EXT16 and CF.B1.EXT16 (R165): two length bytes follow; `DEC_LEN` is not written. -/
def Obligations.MarkerOneTwentySixAwaitsTwoLengthBytes : Prop :=
  ∀ s : State, s.dec.st = .b1 →
    exec .decB1Ext16 s = .next { s with dec := { s.dec with mark := 126, st := .xh } } ∧
    exec .cfB1Ext16 s = .next { s with dec := { s.dec with mark := 126, st := .xh } }

/-- DEC.B1.EXT64 and CF.B1.EXT64 (R166): the frame is refused. -/
def Obligations.MarkerOneTwentySevenIsRefused : Prop :=
  ∀ s : State, s.dec.st = .b1 →
    exec .decB1Ext64 s = .next { s with dec := { s.dec with mark := 127, err := .unsupportedFrameSize, st := .err } } ∧
    exec .cfB1Ext64 s = .next { s with dec := { s.dec with mark := 127, err := .unsupportedFrameSize, st := .err } }

/-- DEC.XH (R167): `DEC_LEN[15:8] <- b`; `DEC_LEN[7:0]` is not written. -/
def Obligations.HighLengthByte : Prop :=
  ∀ (s : State) (b : Byte), s.dec.st = .xh →
    ∃ t, exec (.decXh b) s = .next t ∧ t.dec.len.extractLsb' 8 8 = b ∧ t.dec.len.extractLsb' 0 8 = s.dec.len.extractLsb' 0 8 ∧
      t.dec.st = .xl ∧ t = { s with dec := { s.dec with lenHi := t.dec.lenHi, st := .xl } }

/-- DEC.XL (R168): `DEC_LEN[7:0] <- b`, so that `DEC_LEN` is the big-endian length; every length is accepted. -/
def Obligations.LowLengthByteCompletesTheLength : Prop :=
  ∀ (s : State) (b : Byte), s.dec.st = .xl →
    ∃ t, exec (.decXl b) s = .next t ∧ t.dec.len.toNat = (s.dec.len.extractLsb' 8 8).toNat * 256 + b.toNat ∧
      t.dec.st = .key ∧ t.dec.kidx = 0 ∧ t = { s with dec := { s.dec with lenLo := t.dec.lenLo, kidx := 0, st := .key } }

/-- DEC.KEY (R169). -/
def Obligations.KeyBytesAreLatchedInOrder : Prop :=
  ∀ (s : State) (b : Byte), s.dec.st = .key →
    ∃ t, exec (.decKey b) s = .next t ∧ keyBytes t.dec.key = (keyBytes s.dec.key).set s.dec.kidx.toNat b ∧
      (s.dec.kidx.toNat < 3 → t.dec.kidx.toNat = s.dec.kidx.toNat + 1 ∧ t.dec.st = .key ∧ t.dec.idx = s.dec.idx) ∧
      (s.dec.kidx.toNat = 3 → t.dec.idx = 0 ∧ t.dec.st = if s.dec.len.toNat = 0 then .chk else .pay) ∧
      t.dec.mark = s.dec.mark ∧ t.dec.len = s.dec.len ∧ t.dec.err = s.dec.err ∧ t.dec.buf = s.dec.buf ∧ OnlyDec s t

/-- DEC.PAY (R170): the byte is unmasked and written at `DEC_IDX`; every other byte of the buffer is as before. -/
def Obligations.PayloadByteIsUnmaskedAndStored : Prop :=
  ∀ (s : State) (b : Byte), s.dec.st = .pay → s.dec.idx.toNat < s.dec.len.toNat →
    ∃ t, exec (.decPay b) s = .next t ∧
      (keyBytes s.dec.key)[s.dec.idx.toNat % 4]?.map (b ^^^ ·) = Memory.read t.dec.buf s.dec.idx.toNat ∧
      (∀ a, a ≠ s.dec.idx.toNat → Memory.read t.dec.buf a = Memory.read s.dec.buf a) ∧
      t.dec.idx.toNat = s.dec.idx.toNat + 1 ∧
      (s.dec.idx.toNat + 1 = s.dec.len.toNat → t.dec.st = .chk) ∧
      (s.dec.idx.toNat + 1 < s.dec.len.toNat → t.dec.st = .pay ∧ t.dec.key = s.dec.key) ∧
      t.dec.mark = s.dec.mark ∧ t.dec.len = s.dec.len ∧ t.dec.kidx = s.dec.kidx ∧ t.dec.err = s.dec.err ∧ OnlyDec s t

/-- DEC.RXFAIL (R171): a failure strikes a pending read only. -/
def Obligations.TransportFailureStrikesAPendingRead : Prop :=
  ∀ s : State,
    (s.dec.st ∈ [DecSt.b0, .b1, .xh, .xl, .key, .pay] →
      exec .decRxFail s = .next { s with dec := { s.dec with err := .transportFailure, st := .err } } ∧
      deliver (.dec .rxFail) s = .next { s with dec := { s.dec with err := .transportFailure, st := .err } }) ∧
    (s.dec.st ∈ [DecSt.idle, .chk, .done, .err] → deliver (.dec .rxFail) s = .next s)

/-- DEC.CHECK (R172): the text check over the whole payload; the payload and its length are not altered. -/
def Obligations.TextCheckDecidesTheFrame : Prop :=
  ∀ (s : State) (p : List Byte), s.dec.st = .chk → p.length = s.dec.len.toNat →
    (∀ i (h : i < p.length), Memory.read s.dec.buf i = some p[i]) →
    ∃ t, exec .decCheck s = .next t ∧ t.decBusy = false ∧
      (utf8Valid s.par.text p = true → t = { s with dec := { s.dec with st := .done } } ∧ t.decDone = true) ∧
      (utf8Valid s.par.text p = false →
        t = { s with dec := { s.dec with err := .invalidEncoding, st := .err } } ∧ t.decErr = true)

/-- DEC.IGNORE (R173): the full list of ignored pairs. -/
def Obligations.UnawaitedDecoderEventsAreIgnored : Prop :=
  ∀ (s : State) (e : DecEvent),
    (e = .invoke ∧ s.dec.st ∈ [DecSt.b0, .b1, .xh, .xl, .key, .pay, .chk, .err]) ∨
    ((∃ b, e = .rxByte b) ∧ s.dec.st ∈ [DecSt.idle, .chk, .done, .err]) ∨
    (e = .rxFail ∧ s.dec.st ∈ [DecSt.idle, .chk, .done, .err]) ∨
    (e = .check ∧ s.dec.st ≠ .chk) →
    select s (.dec e) = .decIgnore e ∧ exec (.decIgnore e) s = .next s ∧ deliver (.dec e) s = .next s

/-- DEC.READ (R174): in the window the byte of the result; outside it some byte (U7). No register changes. In a state that meets the
invariant the result is the bytes `DEC_BUF[0..DEC_LEN)`, for which `Utf8Valid` holds. -/
def Obligations.ReadReturnsTheDecodedByte : Prop :=
  ∀ (s : State) (i : BitVec 16),
    (∀ b, s.dec.st = .done → i.toNat < s.dec.len.toNat → Memory.read s.dec.buf i.toNat = some b →
      exec (.decRead i) s = .next { s with dec := { s.dec with rd := some b } }) ∧
    (∃ t b, exec (.decRead i) s = .next t ∧ t.dec.rd = some b ∧ SameDecRegs s.dec t.dec ∧ OnlyDec s t) ∧
    (s.Inv → s.dec.st = .done → ∃ p : List Byte, p.length = s.dec.len.toNat ∧ utf8Valid s.par.text p = true ∧
      ∀ j (h : j < p.length), Memory.read s.dec.buf j = some p[j])

/-- The decoder's complete transition table (41_frame_decoder section 8). -/
def Obligations.DecoderTransitionTable : Prop :=
  ∀ (s t : State) (e : DecEvent), (s.dec.st = .pay → s.dec.idx.toNat < s.dec.len.toNat) → deliver (.dec e) s = .next t →
    t.dec.st =
      match e, s.dec.st with
      | .invoke, .idle => .b0
      | .invoke, .done => .b0
      | .rxByte _, .b0 => .b1
      | .rxByte b, .b1 => if b.toNat ≤ 0x7F then .err else if b.toNat ≤ 0xFD then .key else if b.toNat = 0xFE then .xh else .err
      | .rxByte _, .xh => .xl
      | .rxByte _, .xl => .key
      | .rxByte _, .key => if s.dec.kidx.toNat < 3 then .key else if s.dec.len.toNat = 0 then .chk else .pay
      | .rxByte _, .pay => if s.dec.idx.toNat + 1 < s.dec.len.toNat then .pay else .chk
      | .rxFail, .b0 => .err
      | .rxFail, .b1 => .err
      | .rxFail, .xh => .err
      | .rxFail, .xl => .err
      | .rxFail, .key => .err
      | .rxFail, .pay => .err
      | .check, .chk => if utf8Valid s.par.text s.dec.payload = true then .done else .err
      | _, st => st

/-- Each `RxByte` in a byte-awaiting state advances the position in the frame by exactly one byte, unless it raises an error
(10_state section 7). -/
def Obligations.EachByteAdvancesThePositionByOne : Prop :=
  ∀ (s : State) (b : Byte), s.Inv → s.rxReady = true →
    ∃ t, deliver (.dec (.rxByte b)) s = .next t ∧
      (t.dec.st = .err ∨ ∃ k, s.dec.framePos = some k ∧ t.dec.framePos = some (k + 1))

/-- The decoder unit refines `decode` (41_frame_decoder section 7): after an accepted invocation, the transport's bytes, the failure
if there is one, and the check lead to the outcome `decode` gives for those bytes, from every state that accepts. -/
def Obligations.DecoderRefinesDecode : Prop :=
  ∀ (s : State) (bs : List Byte) (fail : Bool), s.dec.st = .idle ∨ s.dec.st = .done →
    ∃ t, deliverAll (.dec .invoke :: (rxEvents bs fail ++ [.dec .check])) s = .next t ∧ OnlyDec s t ∧
      match frameDecode s.par.text bs fail with
      | .ok p => t.dec.st = .done ∧ t.dec.len.toNat = p.length ∧ (∀ i (h : i < p.length), Memory.read t.dec.buf i = some p[i])
      | .error c => t.dec.st = .err ∧ t.dec.err = c
      | .wait => t.rxReady = true

/-- A whole frame through the transport: from `D_B0` the machine takes exactly the frame's bytes and one check; the bytes after the
frame stay in `RX` (41_frame_decoder section 7; 20_memory section 6). The count of steps, and that the encoder does not move
meanwhile (even in `E_PAY` with bytes in `PL`), are the model's choice: the host idle, the decoder served first (log entries 1, 18
and 25); R83 d and R243 allow any interleaving of the two units. -/
def Obligations.FrameIsTakenFromTheTransportAndNoMore : Prop :=
  ∀ (s : State) (b0 : Byte) (key : Key) (p after : List Byte) (frame : List Byte),
    s.env.inbox = [] → s.dec.st = .b0 → p.length ≤ 65535 →
    frame = clientFrame b0 key p ∨ frame = clientFrame16 b0 key p → s.env.rx = frame ++ after →
    ∃ t, Host.Core.run core (frame.length + 1) s = .next t ∧ t.enc = s.enc ∧ t.env = { s.env with rx := after } ∧
      (utf8Valid s.par.text p = true →
        t.dec.st = .done ∧ t.dec.len.toNat = p.length ∧ ∀ i (h : i < p.length), Memory.read t.dec.buf i = some p[i]) ∧
      (utf8Valid s.par.text p = false → t.dec.st = .err ∧ t.dec.err = .invalidEncoding)

/-- A refused header ends the reading: two bytes are taken, and however long the machine runs on, no further byte is (20_memory
section 6; 41_frame_decoder section 2). -/
def Obligations.RefusedHeaderEndsTheReading : Prop :=
  ∀ (s : State) (b0 b1 : Byte) (after : List Byte) (k : Nat),
    s.env.inbox = [] → s.dec.st = .b0 → s.enc.st ≠ .pay → s.env.rx = b0 :: b1 :: after → b1.toNat < 128 ∨ b1 = 0xFF →
    ∃ t, Host.Core.run core (2 + k) s = .next t ∧ t.env.rx = after ∧ t.dec.st = .err ∧
      t.dec.err = if b1.toNat < 128 then .unmaskedFrame else .unsupportedFrameSize

/-! The encoder. -/

/-- ENC.SHORT and SF.SHORT (R191). -/
def Obligations.ShortHeaderIsBuilt : Prop :=
  ∀ (s : State) (n : Nat), s.enc.st = .idle ∨ s.enc.st = .done → n ≤ 125 →
    ∃ t, exec (.encShort n) s = .next t ∧ exec (.sfShort (BitVec.ofNat 7 n)) s = .next t ∧
      deliver (.enc (.invoke n)) s = .next t ∧
      Memory.read t.enc.buf 0 = some 0x81 ∧ Memory.read t.enc.buf 1 = some (BitVec.ofNat 8 n) ∧
      (∀ a, 2 ≤ a → Memory.read t.enc.buf a = none) ∧
      t.enc.hlen = 2 ∧ t.enc.n.toNat = n ∧ t.enc.idx = 0 ∧ t.enc.err = s.enc.err ∧
      t.enc.tot = (if n = 0 then 2 else 0) ∧ t.enc.st = (if n = 0 then .done else .pay) ∧ OnlyEnc s t

/-- ENC.EXT16 and SF.EXT16 (R192), under either `ENC_MAX_N`. -/
def Obligations.ExtendedHeaderIsBuilt : Prop :=
  ∀ (s : State) (n : Nat), s.enc.st = .idle ∨ s.enc.st = .done → 125 < n → n ≤ s.par.encMax.val →
    ∃ t, exec (.encExt16 n) s = .next t ∧ exec (.sfExt16 n) s = .next t ∧ deliver (.enc (.invoke n)) s = .next t ∧
      Memory.read t.enc.buf 0 = some 0x81 ∧ Memory.read t.enc.buf 1 = some 0x7E ∧
      Memory.read t.enc.buf 2 = some (BitVec.ofNat 8 (n / 256)) ∧ Memory.read t.enc.buf 3 = some (BitVec.ofNat 8 n) ∧
      (∀ a, 4 ≤ a → Memory.read t.enc.buf a = none) ∧
      t.enc.hlen = 4 ∧ t.enc.n.toNat = n ∧ t.enc.idx = 0 ∧ t.enc.err = s.enc.err ∧ t.enc.tot = 0 ∧ t.enc.st = .pay ∧ OnlyEnc s t

/-- ENC.TOOLARGE and SF.TOOLARGE (R193): the message is refused and no byte is written. That no byte of `ENC_BUF` has a value
afterwards is the model's choice: R190, taken first, withdraws the bytes, R230 lets `raise` keep them (log entry 22). -/
def Obligations.TooLargeMessageIsRefused : Prop :=
  ∀ (s : State) (n : Nat), s.enc.st = .idle ∨ s.enc.st = .done → s.par.encMax.val < n →
    ∃ t, exec (.encTooLarge n) s = .next t ∧ exec (.sfTooLarge n) s = .next t ∧ deliver (.enc (.invoke n)) s = .next t ∧
      t.enc.err = .messageTooLarge ∧ t.enc.st = .err ∧ t.enc.tot = 0 ∧ (∀ a, Memory.read t.enc.buf a = none) ∧
      t.plReady = false ∧ t.enc.n = s.enc.n ∧ t.enc.hlen = s.enc.hlen ∧ t.enc.idx = s.enc.idx ∧ OnlyEnc s t

/-- ENC.INVOKE (R190): a frame left in `E_DONE` is given up and exactly one of R191, R192, R193 follows in the same step; no byte of
`ENC_BUF` past the class's header (2, 4, or 0 bytes for a refusal) has a value; in `E_PAY` and `E_ERR` nothing changes. For a refusal
the empty buffer is the model's choice between R190 and R230 (log entry 22). -/
def Obligations.EncoderInvocationChoosesOneClass : Prop :=
  ∀ (s : State) (n : Nat),
    (s.enc.st = .idle ∨ s.enc.st = .done →
      ∃ t, exec (.encInvoke n) s = .next t ∧
        (n ≤ 125 → exec (.encShort n) s = .next t ∧ ∀ a, 2 ≤ a → Memory.read t.enc.buf a = none) ∧
        (125 < n → n ≤ s.par.encMax.val → exec (.encExt16 n) s = .next t ∧ ∀ a, 4 ≤ a → Memory.read t.enc.buf a = none) ∧
        (s.par.encMax.val < n → exec (.encTooLarge n) s = .next t ∧ ∀ a, Memory.read t.enc.buf a = none) ∧
        (n ≠ 0 → t.enc.tot = 0)) ∧
    (s.enc.st = .pay ∨ s.enc.st = .err → exec (.encInvoke n) s = .next s)

/-- ENC.PAY (R194): the byte is written unchanged at `ENC_HLEN + ENC_IDX`; every other byte of the buffer is as before. -/
def Obligations.PayloadByteIsCopied : Prop :=
  ∀ (s : State) (b : Byte), s.enc.st = .pay → s.enc.idx.toNat < s.enc.n.toNat →
    s.enc.payAddr < Config.encCap s.par.encMax →
    ∃ t, exec (.encPay b) s = .next t ∧
      Memory.read t.enc.buf (s.enc.hlen.toNat + s.enc.idx.toNat) = some b ∧
      (∀ a, a ≠ s.enc.hlen.toNat + s.enc.idx.toNat → Memory.read t.enc.buf a = Memory.read s.enc.buf a) ∧
      t.enc.idx.toNat = s.enc.idx.toNat + 1 ∧
      (s.enc.idx.toNat + 1 = s.enc.n.toNat → t.enc.tot.toNat = s.enc.hlen.toNat + s.enc.n.toNat ∧ t.enc.st = .done) ∧
      (s.enc.idx.toNat + 1 < s.enc.n.toNat → t.enc.tot = s.enc.tot ∧ t.enc.st = .pay) ∧
      t.enc.n = s.enc.n ∧ t.enc.hlen = s.enc.hlen ∧ t.enc.err = s.enc.err ∧ OnlyEnc s t

/-- ENC.IGNORE (R195). -/
def Obligations.UnawaitedEncoderEventsAreIgnored : Prop :=
  ∀ (s : State) (e : EncEvent),
    ((∃ n, e = .invoke n) ∧ (s.enc.st = .pay ∨ s.enc.st = .err)) ∨
    ((∃ b, e = .plByte b) ∧ (s.enc.st = .idle ∨ s.enc.st = .done ∨ s.enc.st = .err)) →
    select s (.enc e) = .encIgnore e ∧ exec (.encIgnore e) s = .next s ∧ deliver (.enc e) s = .next s

/-- ENC.READ (R196): in the window the byte of the frame; outside it some byte (U7). No register changes. In a state that meets the
invariant every byte of `ENC_BUF[0..ENC_TOT)` has a value. -/
def Obligations.ReadReturnsTheFrameByte : Prop :=
  ∀ (s : State) (i : BitVec 17),
    (∀ b, s.enc.st = .done → i.toNat < s.enc.tot.toNat → Memory.read s.enc.buf i.toNat = some b →
      exec (.encRead i) s = .next { s with enc := { s.enc with rd := some b } }) ∧
    (∃ t b, exec (.encRead i) s = .next t ∧ t.enc.rd = some b ∧ SameEncRegs s.enc t.enc ∧ OnlyEnc s t) ∧
    (s.Inv → s.enc.st = .done → ∃ f : List Byte, f.length = s.enc.tot.toNat ∧
      ∀ j (h : j < f.length), Memory.read s.enc.buf j = some f[j])

/-- The encoder's complete transition table (42_frame_encoder section 6). -/
def Obligations.EncoderTransitionTable : Prop :=
  ∀ (s t : State) (e : EncEvent), (s.enc.st = .pay → s.enc.idx.toNat < s.enc.n.toNat) → deliver (.enc e) s = .next t →
    t.enc.st =
      match e, s.enc.st with
      | .invoke n, .idle => if n = 0 then .done else if n ≤ s.par.encMax.val then .pay else .err
      | .invoke n, .done => if n = 0 then .done else if n ≤ s.par.encMax.val then .pay else .err
      | .plByte _, .pay => if s.enc.idx.toNat + 1 < s.enc.n.toNat then .pay else .done
      | _, st => st

/-- The encoder unit refines `encode` (42_frame_encoder section 3), for a payload of any length, from every state that accepts. -/
def Obligations.EncoderRefinesEncode : Prop :=
  ∀ (s : State) (p : List Byte), s.enc.st = .idle ∨ s.enc.st = .done →
    ∃ t, deliverAll (.enc (.invoke p.length) :: plEvents p) s = .next t ∧ OnlyEnc s t ∧
      match frameEncode s.par.encMax p with
      | .ok f => t.enc.st = .done ∧ t.enc.tot.toNat = f.length ∧ (∀ i (h : i < f.length), Memory.read t.enc.buf i = some f[i])
      | .error c => t.enc.st = .err ∧ t.enc.err = c ∧ t.enc.tot = 0
      | .wait => False

/-- No loop-back (30_encoding section 4): fed any frame the encoder builds, the decoder raises `UnmaskedFrame`. -/
def Obligations.DecoderRefusesTheEncodersFrames : Prop :=
  ∀ (s : State) (p f : List Byte) (fail : Bool), frameEncode s.par.encMax p = .ok f → s.dec.st = .idle ∨ s.dec.st = .done →
    ∃ t, deliverAll (.dec .invoke :: (rxEvents f fail ++ [.dec .check])) s = .next t ∧ t.dec.st = .err ∧
      t.dec.err = .unmaskedFrame

/-! Reset, errors, the two units, invariants. -/

/-- RESET (R260), in any state: the values the spec gives, no byte of a buffer has a value, all status lines 0; the parameters are
configuration and the streams are the environment's. -/
def Obligations.ResetReturnsBothUnitsToIdle : Prop :=
  ∀ s : State, ∃ t, exec .reset s = .next t ∧
    t.dec.st = .idle ∧ t.dec.err = .none ∧ t.enc.st = .idle ∧ t.enc.err = .none ∧ t.enc.tot = 0 ∧
    (∀ a, Memory.read t.dec.buf a = none) ∧ (∀ a, Memory.read t.enc.buf a = none) ∧
    t.rxReady = false ∧ t.decBusy = false ∧ t.decDone = false ∧ t.decErr = false ∧ t.plReady = false ∧ t.encBusy = false ∧
    t.encDone = false ∧ t.encErr = false ∧ t.fatal = false ∧ t.par = s.par ∧ t.env = s.env

/-- The state after reset has the values the spec gives for reset (10_state section 9, the rows with a value) and meets the
invariant. -/
def Obligations.ResetStateMeetsTheInvariant : Prop :=
  State.reset.dec.st.code = 0 ∧ State.reset.dec.err.code = 0 ∧ State.reset.enc.st.code = 0 ∧ State.reset.enc.err.code = 0 ∧
  State.reset.enc.tot = 0 ∧ State.reset.Inv

/-- Every step keeps the invariant: the buffers' canonical form and range, the error codes, the counters within their bounds, the
bytes of a frame under construction, the text check of a delivered payload. -/
def Obligations.StepKeepsTheInvariant : Prop :=
  ∀ s t : State, s.Inv → step s = .next t → t.Inv

/-- Every row runs in every state that meets the invariant: nothing is refused and nothing faults (00_scope section 2: "Nothing is
refused for lack of a rule"). -/
def Obligations.EveryRowRunsUnderTheInvariant : Prop :=
  ∀ (i : Instr) (s : State), s.Inv → ∃ t, exec i s = .next t

/-- Which registers a row writes that takes a unit into its error state (60_exceptions section 4). The decoder: `DEC_ST`, `DEC_ERR`,
and `DEC_MARK` (127) with `UnsupportedFrameSize` only, latched in the same step (R163). The encoder: `ENC_ST`, `ENC_ERR`, `ENC_TOT`
(0), and `ENC_BUF`, of which no byte has a value. The emptied `ENC_BUF` is the model's choice between R190 and R230 (log entry 22). -/
def Obligations.ErrorEntryWritesTheseRegisters : Prop :=
  ∀ (i : Instr) (s t : State), exec i s = .next t →
    (s.dec.st ≠ .err → t.dec.st = .err →
      t = { s with dec := { s.dec with st := .err, err := t.dec.err, mark := t.dec.mark } } ∧
      t.dec.err ∈ [ErrCode.unsupportedFrameSize, .invalidEncoding, .transportFailure, .unmaskedFrame] ∧
      t.dec.mark = (if t.dec.err = .unsupportedFrameSize then 127 else s.dec.mark) ∧
      t.decErr = true ∧ t.fatal = true ∧ t.rxReady = false ∧ t.decBusy = false) ∧
    (s.enc.st ≠ .err → t.enc.st = .err →
      t = { s with enc := { s.enc with st := .err, err := .messageTooLarge, tot := 0, buf := [] } } ∧
      t.encErr = true ∧ t.fatal = true ∧ t.plReady = false ∧ t.encBusy = false)

/-- An error is kept until RESET (R232): every other row leaves the registers of a unit in its error state as they are, and RESET
leaves the error state. -/
def Obligations.ErrorIsKeptUntilReset : Prop :=
  (∀ (i : Instr) (s t : State), i ≠ .reset → exec i s = .next t →
    (s.dec.st = .err → SameDecRegs s.dec t.dec) ∧ (s.enc.st = .err → SameEncRegs s.enc t.enc)) ∧
  (∀ s : State, ∃ t, exec .reset s = .next t ∧ t.dec.st ≠ .err ∧ t.enc.st ≠ .err ∧ t.dec.err = .none ∧ t.enc.err = .none)

/-- Only RESET leads into an idle state, and the error code of a unit is written by an error entry or RESET only (R42, R49). -/
def Obligations.ErrorCodeIsWrittenByErrorAndResetOnly : Prop :=
  ∀ (i : Instr) (s t : State), i ≠ .reset → exec i s = .next t →
    (t.dec.st = .idle → s.dec.st = .idle) ∧ (t.enc.st = .idle → s.enc.st = .idle) ∧
    (t.dec.err = s.dec.err ∨ (s.dec.st ≠ .err ∧ t.dec.st = .err)) ∧
    (t.enc.err = s.enc.err ∨ (s.enc.st ≠ .err ∧ t.enc.st = .err))

/-- The two units share no state (R83 d, R234): a decoder event changes only the decoder, an encoder event only the encoder, and the
line `fatal` is the or of the two error lines. -/
def Obligations.UnitsAreSeparate : Prop :=
  (∀ (e : DecEvent) (s t : State), deliver (.dec e) s = .next t → OnlyDec s t) ∧
  (∀ (e : EncEvent) (s t : State), deliver (.enc e) s = .next t → OnlyEnc s t) ∧
  (∀ s : State, s.fatal = (s.decErr || s.encErr))

/-- A decoder event and an encoder event commute (10_state section 2). -/
def Obligations.DecoderAndEncoderEventsCommute : Prop :=
  ∀ (d : DecEvent) (e : EncEvent) (s t u : State), deliver (.dec d) s = .next t → deliver (.enc e) s = .next u →
    ∃ v, deliver (.enc e) t = .next v ∧ deliver (.dec d) u = .next v

/-- No row writes the parameters or the environment (10_state section 8; log entries 1 and 7). -/
def Obligations.RowsKeepParametersAndEnvironment : Prop :=
  ∀ (i : Instr) (s t : State), exec i s = .next t → t.par = s.par ∧ t.env = s.env

/-- What lies outside a validity window is read by no rule (00_scope section 4, validity windows; 10_state section 9): two states
whose units agree inside their windows take the same steps and agree inside the windows afterwards. -/
def Obligations.NothingOutsideAWindowIsRead : Prop :=
  (∀ (e : DecEvent) (s u s' : State), s.dec.view = u.dec.view → s.par = u.par → deliver (.dec e) s = .next s' →
    ∃ u', deliver (.dec e) u = .next u' ∧ s'.dec.view = u'.dec.view) ∧
  (∀ (e : EncEvent) (s u s' : State), s.enc.view = u.enc.view → s.par = u.par → deliver (.enc e) s = .next s' →
    ∃ u', deliver (.enc e) u = .next u' ∧ s'.enc.view = u'.enc.view) ∧
  (∀ (i : BitVec 16) (s u s' : State), s.dec.view = u.dec.view → exec (.decRead i) s = .next s' →
    ∃ u', exec (.decRead i) u = .next u' ∧ s'.dec.view = u'.dec.view) ∧
  (∀ (i : BitVec 17) (s u s' : State), s.enc.view = u.enc.view → exec (.encRead i) s = .next s' →
    ∃ u', exec (.encRead i) u = .next u' ∧ s'.enc.view = u'.enc.view)

/-- The status lines and the output ports (10_state sections 2 and 6; the numbers of 60_exceptions section 1): each line by the
sequencer's state; of busy, done, error at most one is 1, and none exactly in the idle state; the code ports show the numbers of the
errors; the length and read-data ports where the port table gives them a meaning. -/
def Obligations.StatusLinesAreExclusive : Prop :=
  ∀ s : State,
    ((s.decBusy = false ∧ s.decDone = false ∧ s.decErr = false) ↔ s.dec.st = .idle) ∧
    ¬ (s.decBusy = true ∧ s.decDone = true) ∧ ¬ (s.decBusy = true ∧ s.decErr = true) ∧ ¬ (s.decDone = true ∧ s.decErr = true) ∧
    ((s.encBusy = false ∧ s.encDone = false ∧ s.encErr = false) ↔ s.enc.st = .idle) ∧
    ¬ (s.encBusy = true ∧ s.encDone = true) ∧ ¬ (s.encBusy = true ∧ s.encErr = true) ∧ ¬ (s.encDone = true ∧ s.encErr = true) ∧
    (s.rxReady = true ↔ s.dec.st ∈ [DecSt.b0, .b1, .xh, .xl, .key, .pay]) ∧
    (s.decBusy = true ↔ s.dec.st ∉ [DecSt.idle, .done, .err]) ∧ (s.decDone = true ↔ s.dec.st = .done) ∧
    (s.decErr = true ↔ s.dec.st = .err) ∧
    (s.plReady = true ↔ s.enc.st = .pay) ∧ (s.encBusy = true ↔ s.enc.st = .pay) ∧ (s.encDone = true ↔ s.enc.st = .done) ∧
    (s.encErr = true ↔ s.enc.st = .err) ∧ (s.fatal = true ↔ s.dec.st = .err ∨ s.enc.st = .err) ∧
    [ErrCode.none, .unsupportedFrameSize, .messageTooLarge, .invalidEncoding, .transportFailure, .unmaskedFrame].map ErrCode.code =
      [0, 1, 2, 3, 4, 5] ∧
    ∀ (a : BitVec 16) (i : BitVec 17), ∃ o, portsOut s a i = o ∧
      o.rxReady = s.rxReady ∧ o.decBusy = s.decBusy ∧ o.decDone = s.decDone ∧ o.decErr = s.decErr ∧ o.plReady = s.plReady ∧
      o.encBusy = s.encBusy ∧ o.encDone = s.encDone ∧ o.encErr = s.encErr ∧ o.fatal = s.fatal ∧
      o.decErrCode = s.dec.err.code ∧ o.encErrCode = s.enc.err.code ∧ o.encTot = s.enc.tot ∧
      (s.dec.st = .done → o.decLen = some s.dec.len ∧
        (a.toNat < s.dec.len.toNat → o.decRdData = Memory.read s.dec.buf a.toNat)) ∧
      (s.enc.st = .done → i.toNat < s.enc.tot.toNat → o.encRdData = Memory.read s.enc.buf i.toNat)

/-- Port activity to events (R34): which events a clock edge carries; a `DecInvoke` or `EncInvoke` beside another event of its unit is
one the unit ignores. -/
def Obligations.EdgeCarriesItsEvents : Prop :=
  ∀ (s : State) (p : PortsIn),
    (p.rst = true → edgeEvents s p = [.reset]) ∧
    (p.rst = false →
      (.reset ∉ edgeEvents s p) ∧
      (.dec .invoke ∈ edgeEvents s p ↔ p.decInvoke = true) ∧
      (∀ b, .dec (.rxByte b) ∈ edgeEvents s p ↔ s.rxReady = true ∧ p.rxValid = true ∧ b = p.rxData) ∧
      (.dec .rxFail ∈ edgeEvents s p ↔ s.rxReady = true ∧ p.rxValid = false ∧ p.rxFail = true) ∧
      (.dec .check ∈ edgeEvents s p ↔ s.dec.st = .chk) ∧
      (∀ n, .enc (.invoke n) ∈ edgeEvents s p ↔ p.encInvoke = true ∧ n = p.encN) ∧
      (∀ b, .enc (.plByte b) ∈ edgeEvents s p ↔ s.plReady = true ∧ p.plValid = true ∧ b = p.plData)) ∧
    (s.rxReady = true ∨ s.dec.st = .chk → deliver (.dec .invoke) s = .next s) ∧
    (∀ n, s.plReady = true → deliver (.enc (.invoke n)) s = .next s)

/-- The model's choices: a step row or wire form applied where its unit's state, or its operand, does not select it changes nothing
(log entry 10);
`mark7` of a byte below 128, where the function is not defined, shows some marker (log entry 15); a payload byte that would be written
past a buffer's last index, which no state that meets the invariant does, is a fault (log entry 16). -/
def Obligations.RowsOutsideTheirConditions : Prop :=
  ∀ (s : State) (b : Byte) (m : BitVec 7) (n : Nat),
    (s.dec.st ≠ .b0 → exec (.decB0 b) s = .next s ∧ exec (.cfB0Any b) s = .next s) ∧
    (s.dec.st ≠ .b1 → exec (.decB1Unmasked b) s = .next s ∧ exec (.decB1 b) s = .next s ∧ exec (.decB1Short b) s = .next s ∧
      exec .decB1Ext16 s = .next s ∧ exec .decB1Ext64 s = .next s ∧ exec (.cfB1Unmasked m) s = .next s ∧
      exec (.cfB1Short m) s = .next s ∧ exec .cfB1Ext16 s = .next s ∧ exec .cfB1Ext64 s = .next s) ∧
    (s.dec.st ≠ .xh → exec (.decXh b) s = .next s) ∧
    (s.dec.st ≠ .xl → exec (.decXl b) s = .next s) ∧
    (s.dec.st ≠ .key → exec (.decKey b) s = .next s) ∧
    (s.dec.st ≠ .pay → exec (.decPay b) s = .next s) ∧
    (s.rxReady = false → exec .decRxFail s = .next s) ∧
    (s.dec.st ≠ .chk → exec .decCheck s = .next s) ∧
    (s.enc.st = .pay ∨ s.enc.st = .err → exec (.encInvoke n) s = .next s ∧ exec (.encShort n) s = .next s ∧
      exec (.encExt16 n) s = .next s ∧ exec (.encTooLarge n) s = .next s ∧ exec (.sfShort m) s = .next s ∧
      exec (.sfExt16 n) s = .next s ∧ exec (.sfTooLarge n) s = .next s) ∧
    (s.enc.st ≠ .pay → exec (.encPay b) s = .next s) ∧
    (128 ≤ b.toNat → exec (.decB1Unmasked b) s = .next s) ∧
    (b.toNat < 128 → exec (.decB1 b) s = .next s) ∧
    (b.toNat < 0x80 ∨ 0xFD < b.toNat → exec (.decB1Short b) s = .next s) ∧
    (125 < m.toNat → exec (.cfB1Short m) s = .next s ∧ exec (.sfShort m) s = .next s) ∧
    (125 < n → exec (.encShort n) s = .next s) ∧
    (n ≤ 125 ∨ s.par.encMax.val < n → exec (.encExt16 n) s = .next s ∧ exec (.sfExt16 n) s = .next s) ∧
    (n ≤ s.par.encMax.val → exec (.encTooLarge n) s = .next s ∧ exec (.sfTooLarge n) s = .next s) ∧
    (∀ d e, exec (.decIgnore d) s = .next s ∧ exec (.encIgnore e) s = .next s) ∧
    (b.toNat < 128 → ∃ v : BitVec 7, exec (.mark7 b) s = .next { s with result := some (.marker v) }) ∧
    (s.dec.st = .pay → Config.decCap ≤ s.dec.idx.toNat → exec (.decPay b) s = .fault .decBufRange) ∧
    (s.enc.st = .pay → Config.encCap s.par.encMax ≤ s.enc.payAddr → exec (.encPay b) s = .fault .encBufRange)
end

