-- ==== Sys2Proof/Laws/State.lean ====
section
/-! SUPPORT. One lemma per field per update of State, and what each update of a unit leaves unchanged. -/

namespace Sys2Proof.Machine

@[simp] theorem withDec_dec (s : State) (d : Dec) : (s.withDec d).dec = d := rfl
@[simp] theorem withDec_enc (s : State) (d : Dec) : (s.withDec d).enc = s.enc := rfl
@[simp] theorem withDec_par (s : State) (d : Dec) : (s.withDec d).par = s.par := rfl
@[simp] theorem withDec_env (s : State) (d : Dec) : (s.withDec d).env = s.env := rfl
@[simp] theorem withDec_result (s : State) (d : Dec) : (s.withDec d).result = s.result := rfl

@[simp] theorem withEnc_dec (s : State) (e : Enc) : (s.withEnc e).dec = s.dec := rfl
@[simp] theorem withEnc_enc (s : State) (e : Enc) : (s.withEnc e).enc = e := rfl
@[simp] theorem withEnc_par (s : State) (e : Enc) : (s.withEnc e).par = s.par := rfl
@[simp] theorem withEnc_env (s : State) (e : Enc) : (s.withEnc e).env = s.env := rfl
@[simp] theorem withEnc_result (s : State) (e : Enc) : (s.withEnc e).result = s.result := rfl

@[simp] theorem withResult_dec (s : State) (v : Value) : (s.withResult v).dec = s.dec := rfl
@[simp] theorem withResult_enc (s : State) (v : Value) : (s.withResult v).enc = s.enc := rfl
@[simp] theorem withResult_par (s : State) (v : Value) : (s.withResult v).par = s.par := rfl
@[simp] theorem withResult_env (s : State) (v : Value) : (s.withResult v).env = s.env := rfl
@[simp] theorem withResult_result (s : State) (v : Value) : (s.withResult v).result = some v := rfl

@[simp] theorem withEnv_dec (s : State) (v : Env) : (s.withEnv v).dec = s.dec := rfl
@[simp] theorem withEnv_enc (s : State) (v : Env) : (s.withEnv v).enc = s.enc := rfl
@[simp] theorem withEnv_par (s : State) (v : Env) : (s.withEnv v).par = s.par := rfl
@[simp] theorem withEnv_env (s : State) (v : Env) : (s.withEnv v).env = v := rfl
@[simp] theorem withEnv_result (s : State) (v : Env) : (s.withEnv v).result = s.result := rfl

@[simp] theorem withInbox_dec (s : State) (l : List Stim) : (s.withInbox l).dec = s.dec := rfl
@[simp] theorem withInbox_enc (s : State) (l : List Stim) : (s.withInbox l).enc = s.enc := rfl
@[simp] theorem withInbox_par (s : State) (l : List Stim) : (s.withInbox l).par = s.par := rfl
@[simp] theorem withInbox_env (s : State) (l : List Stim) : (s.withInbox l).env = { s.env with inbox := l } := rfl
@[simp] theorem withInbox_result (s : State) (l : List Stim) : (s.withInbox l).result = s.result := rfl

@[simp] theorem withRx_dec (s : State) (l : List Byte) : (s.withRx l).dec = s.dec := rfl
@[simp] theorem withRx_enc (s : State) (l : List Byte) : (s.withRx l).enc = s.enc := rfl
@[simp] theorem withRx_par (s : State) (l : List Byte) : (s.withRx l).par = s.par := rfl
@[simp] theorem withRx_env (s : State) (l : List Byte) : (s.withRx l).env = { s.env with rx := l } := rfl
@[simp] theorem withRx_result (s : State) (l : List Byte) : (s.withRx l).result = s.result := rfl

@[simp] theorem withPl_dec (s : State) (l : List Byte) : (s.withPl l).dec = s.dec := rfl
@[simp] theorem withPl_enc (s : State) (l : List Byte) : (s.withPl l).enc = s.enc := rfl
@[simp] theorem withPl_par (s : State) (l : List Byte) : (s.withPl l).par = s.par := rfl
@[simp] theorem withPl_env (s : State) (l : List Byte) : (s.withPl l).env = { s.env with pl := l } := rfl
@[simp] theorem withPl_result (s : State) (l : List Byte) : (s.withPl l).result = s.result := rfl

@[simp] theorem Dec.raise_st (d : Dec) (c : ErrCode) : (d.raise c).st = .err := rfl
@[simp] theorem Dec.raise_mark (d : Dec) (c : ErrCode) : (d.raise c).mark = d.mark := rfl
@[simp] theorem Dec.raise_lenHi (d : Dec) (c : ErrCode) : (d.raise c).lenHi = d.lenHi := rfl
@[simp] theorem Dec.raise_lenLo (d : Dec) (c : ErrCode) : (d.raise c).lenLo = d.lenLo := rfl
@[simp] theorem Dec.raise_kidx (d : Dec) (c : ErrCode) : (d.raise c).kidx = d.kidx := rfl
@[simp] theorem Dec.raise_key (d : Dec) (c : ErrCode) : (d.raise c).key = d.key := rfl
@[simp] theorem Dec.raise_idx (d : Dec) (c : ErrCode) : (d.raise c).idx = d.idx := rfl
@[simp] theorem Dec.raise_err (d : Dec) (c : ErrCode) : (d.raise c).err = c := rfl
@[simp] theorem Dec.raise_buf (d : Dec) (c : ErrCode) : (d.raise c).buf = d.buf := rfl
@[simp] theorem Dec.raise_free (d : Dec) (c : ErrCode) : (d.raise c).free = d.free := rfl
@[simp] theorem Dec.raise_rd (d : Dec) (c : ErrCode) : (d.raise c).rd = d.rd := rfl

@[simp] theorem Dec.takeByte0_st (d : Dec) : (d.takeByte0).st = .b1 := rfl
@[simp] theorem Dec.takeByte0_mark (d : Dec) : (d.takeByte0).mark = d.mark := rfl
@[simp] theorem Dec.takeByte0_lenHi (d : Dec) : (d.takeByte0).lenHi = d.lenHi := rfl
@[simp] theorem Dec.takeByte0_lenLo (d : Dec) : (d.takeByte0).lenLo = d.lenLo := rfl
@[simp] theorem Dec.takeByte0_kidx (d : Dec) : (d.takeByte0).kidx = d.kidx := rfl
@[simp] theorem Dec.takeByte0_key (d : Dec) : (d.takeByte0).key = d.key := rfl
@[simp] theorem Dec.takeByte0_idx (d : Dec) : (d.takeByte0).idx = d.idx := rfl
@[simp] theorem Dec.takeByte0_err (d : Dec) : (d.takeByte0).err = d.err := rfl
@[simp] theorem Dec.takeByte0_buf (d : Dec) : (d.takeByte0).buf = d.buf := rfl
@[simp] theorem Dec.takeByte0_free (d : Dec) : (d.takeByte0).free = d.free := rfl
@[simp] theorem Dec.takeByte0_rd (d : Dec) : (d.takeByte0).rd = d.rd := rfl

@[simp] theorem Dec.takeExt16_st (d : Dec) : (d.takeExt16).st = .xh := rfl
@[simp] theorem Dec.takeExt16_mark (d : Dec) : (d.takeExt16).mark = 126 := rfl
@[simp] theorem Dec.takeExt16_lenHi (d : Dec) : (d.takeExt16).lenHi = d.lenHi := rfl
@[simp] theorem Dec.takeExt16_lenLo (d : Dec) : (d.takeExt16).lenLo = d.lenLo := rfl
@[simp] theorem Dec.takeExt16_kidx (d : Dec) : (d.takeExt16).kidx = d.kidx := rfl
@[simp] theorem Dec.takeExt16_key (d : Dec) : (d.takeExt16).key = d.key := rfl
@[simp] theorem Dec.takeExt16_idx (d : Dec) : (d.takeExt16).idx = d.idx := rfl
@[simp] theorem Dec.takeExt16_err (d : Dec) : (d.takeExt16).err = d.err := rfl
@[simp] theorem Dec.takeExt16_buf (d : Dec) : (d.takeExt16).buf = d.buf := rfl
@[simp] theorem Dec.takeExt16_free (d : Dec) : (d.takeExt16).free = d.free := rfl
@[simp] theorem Dec.takeExt16_rd (d : Dec) : (d.takeExt16).rd = d.rd := rfl

@[simp] theorem Dec.takeExt64_st (d : Dec) : (d.takeExt64).st = .err := rfl
@[simp] theorem Dec.takeExt64_mark (d : Dec) : (d.takeExt64).mark = 127 := rfl
@[simp] theorem Dec.takeExt64_lenHi (d : Dec) : (d.takeExt64).lenHi = d.lenHi := rfl
@[simp] theorem Dec.takeExt64_lenLo (d : Dec) : (d.takeExt64).lenLo = d.lenLo := rfl
@[simp] theorem Dec.takeExt64_kidx (d : Dec) : (d.takeExt64).kidx = d.kidx := rfl
@[simp] theorem Dec.takeExt64_key (d : Dec) : (d.takeExt64).key = d.key := rfl
@[simp] theorem Dec.takeExt64_idx (d : Dec) : (d.takeExt64).idx = d.idx := rfl
@[simp] theorem Dec.takeExt64_err (d : Dec) : (d.takeExt64).err = .unsupportedFrameSize := rfl
@[simp] theorem Dec.takeExt64_buf (d : Dec) : (d.takeExt64).buf = d.buf := rfl
@[simp] theorem Dec.takeExt64_free (d : Dec) : (d.takeExt64).free = d.free := rfl
@[simp] theorem Dec.takeExt64_rd (d : Dec) : (d.takeExt64).rd = d.rd := rfl

@[simp] theorem Dec.takeUnmasked_st (d : Dec) : (d.takeUnmasked).st = .err := rfl
@[simp] theorem Dec.takeUnmasked_mark (d : Dec) : (d.takeUnmasked).mark = d.mark := rfl
@[simp] theorem Dec.takeUnmasked_lenHi (d : Dec) : (d.takeUnmasked).lenHi = d.lenHi := rfl
@[simp] theorem Dec.takeUnmasked_lenLo (d : Dec) : (d.takeUnmasked).lenLo = d.lenLo := rfl
@[simp] theorem Dec.takeUnmasked_kidx (d : Dec) : (d.takeUnmasked).kidx = d.kidx := rfl
@[simp] theorem Dec.takeUnmasked_key (d : Dec) : (d.takeUnmasked).key = d.key := rfl
@[simp] theorem Dec.takeUnmasked_idx (d : Dec) : (d.takeUnmasked).idx = d.idx := rfl
@[simp] theorem Dec.takeUnmasked_err (d : Dec) : (d.takeUnmasked).err = .unmaskedFrame := rfl
@[simp] theorem Dec.takeUnmasked_buf (d : Dec) : (d.takeUnmasked).buf = d.buf := rfl
@[simp] theorem Dec.takeUnmasked_free (d : Dec) : (d.takeUnmasked).free = d.free := rfl
@[simp] theorem Dec.takeUnmasked_rd (d : Dec) : (d.takeUnmasked).rd = d.rd := rfl

@[simp] theorem Dec.takeShort_st (d : Dec) (m : BitVec 7) : (d.takeShort m).st = .key := rfl
@[simp] theorem Dec.takeShort_mark (d : Dec) (m : BitVec 7) : (d.takeShort m).mark = m := rfl
@[simp] theorem Dec.takeShort_lenHi (d : Dec) (m : BitVec 7) : (d.takeShort m).lenHi = 0 := rfl
@[simp] theorem Dec.takeShort_lenLo (d : Dec) (m : BitVec 7) : (d.takeShort m).lenLo = m.setWidth 8 := rfl
@[simp] theorem Dec.takeShort_kidx (d : Dec) (m : BitVec 7) : (d.takeShort m).kidx = 0 := rfl
@[simp] theorem Dec.takeShort_key (d : Dec) (m : BitVec 7) : (d.takeShort m).key = d.key := rfl
@[simp] theorem Dec.takeShort_idx (d : Dec) (m : BitVec 7) : (d.takeShort m).idx = d.idx := rfl
@[simp] theorem Dec.takeShort_err (d : Dec) (m : BitVec 7) : (d.takeShort m).err = d.err := rfl
@[simp] theorem Dec.takeShort_buf (d : Dec) (m : BitVec 7) : (d.takeShort m).buf = d.buf := rfl
@[simp] theorem Dec.takeShort_free (d : Dec) (m : BitVec 7) : (d.takeShort m).free = d.free := rfl
@[simp] theorem Dec.takeShort_rd (d : Dec) (m : BitVec 7) : (d.takeShort m).rd = d.rd := rfl

@[simp] theorem Dec.takeLenHi_st (d : Dec) (b : Byte) : (d.takeLenHi b).st = .xl := rfl
@[simp] theorem Dec.takeLenHi_mark (d : Dec) (b : Byte) : (d.takeLenHi b).mark = d.mark := rfl
@[simp] theorem Dec.takeLenHi_lenHi (d : Dec) (b : Byte) : (d.takeLenHi b).lenHi = b := rfl
@[simp] theorem Dec.takeLenHi_lenLo (d : Dec) (b : Byte) : (d.takeLenHi b).lenLo = d.lenLo := rfl
@[simp] theorem Dec.takeLenHi_kidx (d : Dec) (b : Byte) : (d.takeLenHi b).kidx = d.kidx := rfl
@[simp] theorem Dec.takeLenHi_key (d : Dec) (b : Byte) : (d.takeLenHi b).key = d.key := rfl
@[simp] theorem Dec.takeLenHi_idx (d : Dec) (b : Byte) : (d.takeLenHi b).idx = d.idx := rfl
@[simp] theorem Dec.takeLenHi_err (d : Dec) (b : Byte) : (d.takeLenHi b).err = d.err := rfl
@[simp] theorem Dec.takeLenHi_buf (d : Dec) (b : Byte) : (d.takeLenHi b).buf = d.buf := rfl
@[simp] theorem Dec.takeLenHi_free (d : Dec) (b : Byte) : (d.takeLenHi b).free = d.free := rfl
@[simp] theorem Dec.takeLenHi_rd (d : Dec) (b : Byte) : (d.takeLenHi b).rd = d.rd := rfl

@[simp] theorem Dec.takeLenLo_st (d : Dec) (b : Byte) : (d.takeLenLo b).st = .key := rfl
@[simp] theorem Dec.takeLenLo_mark (d : Dec) (b : Byte) : (d.takeLenLo b).mark = d.mark := rfl
@[simp] theorem Dec.takeLenLo_lenHi (d : Dec) (b : Byte) : (d.takeLenLo b).lenHi = d.lenHi := rfl
@[simp] theorem Dec.takeLenLo_lenLo (d : Dec) (b : Byte) : (d.takeLenLo b).lenLo = b := rfl
@[simp] theorem Dec.takeLenLo_kidx (d : Dec) (b : Byte) : (d.takeLenLo b).kidx = 0 := rfl
@[simp] theorem Dec.takeLenLo_key (d : Dec) (b : Byte) : (d.takeLenLo b).key = d.key := rfl
@[simp] theorem Dec.takeLenLo_idx (d : Dec) (b : Byte) : (d.takeLenLo b).idx = d.idx := rfl
@[simp] theorem Dec.takeLenLo_err (d : Dec) (b : Byte) : (d.takeLenLo b).err = d.err := rfl
@[simp] theorem Dec.takeLenLo_buf (d : Dec) (b : Byte) : (d.takeLenLo b).buf = d.buf := rfl
@[simp] theorem Dec.takeLenLo_free (d : Dec) (b : Byte) : (d.takeLenLo b).free = d.free := rfl
@[simp] theorem Dec.takeLenLo_rd (d : Dec) (b : Byte) : (d.takeLenLo b).rd = d.rd := rfl

@[simp] theorem Enc.raise_st (e : Enc) (c : ErrCode) : (e.raise c).st = .err := rfl
@[simp] theorem Enc.raise_n (e : Enc) (c : ErrCode) : (e.raise c).n = e.n := rfl
@[simp] theorem Enc.raise_hlen (e : Enc) (c : ErrCode) : (e.raise c).hlen = e.hlen := rfl
@[simp] theorem Enc.raise_idx (e : Enc) (c : ErrCode) : (e.raise c).idx = e.idx := rfl
@[simp] theorem Enc.raise_tot (e : Enc) (c : ErrCode) : (e.raise c).tot = 0 := rfl
@[simp] theorem Enc.raise_err (e : Enc) (c : ErrCode) : (e.raise c).err = c := rfl
@[simp] theorem Enc.raise_buf (e : Enc) (c : ErrCode) : (e.raise c).buf = e.buf := rfl
@[simp] theorem Enc.raise_free (e : Enc) (c : ErrCode) : (e.raise c).free = e.free := rfl
@[simp] theorem Enc.raise_rd (e : Enc) (c : ErrCode) : (e.raise c).rd = e.rd := rfl

@[simp] theorem Enc.begin_st (e : Enc) : (e.begin).st = e.st := rfl
@[simp] theorem Enc.begin_n (e : Enc) : (e.begin).n = e.n := rfl
@[simp] theorem Enc.begin_hlen (e : Enc) : (e.begin).hlen = e.hlen := rfl
@[simp] theorem Enc.begin_idx (e : Enc) : (e.begin).idx = e.idx := rfl
@[simp] theorem Enc.begin_tot (e : Enc) : (e.begin).tot = 0 := rfl
@[simp] theorem Enc.begin_err (e : Enc) : (e.begin).err = e.err := rfl
@[simp] theorem Enc.begin_buf (e : Enc) : (e.begin).buf = [] := rfl
@[simp] theorem Enc.begin_free (e : Enc) : (e.begin).free = e.free := rfl
@[simp] theorem Enc.begin_rd (e : Enc) : (e.begin).rd = e.rd := rfl

@[simp] theorem Enc.refuse_st (e : Enc) : (e.refuse).st = .err := rfl
@[simp] theorem Enc.refuse_n (e : Enc) : (e.refuse).n = e.n := rfl
@[simp] theorem Enc.refuse_hlen (e : Enc) : (e.refuse).hlen = e.hlen := rfl
@[simp] theorem Enc.refuse_idx (e : Enc) : (e.refuse).idx = e.idx := rfl
@[simp] theorem Enc.refuse_tot (e : Enc) : (e.refuse).tot = 0 := rfl
@[simp] theorem Enc.refuse_err (e : Enc) : (e.refuse).err = .messageTooLarge := rfl
@[simp] theorem Enc.refuse_buf (e : Enc) : (e.refuse).buf = [] := rfl
@[simp] theorem Enc.refuse_free (e : Enc) : (e.refuse).free = e.free := rfl
@[simp] theorem Enc.refuse_rd (e : Enc) : (e.refuse).rd = e.rd := rfl

end Sys2Proof.Machine
end

