-- ==== Sys2Proof/Laws/Ops.lean ====
section
/-! SUPPORT. For each shared operation, once, everything it can do; cited instead of unfolding the operation. -/

namespace Sys2Proof.Machine

/-! Rows. -/

@[simp] theorem decRow_true (d : Dec) (s : State) : decRow true d s = .next (s.withDec d) := rfl
@[simp] theorem decRow_false (d : Dec) (s : State) : decRow false d s = .next s := rfl
@[simp] theorem encRow_true (e : Enc) (s : State) : encRow true e s = .next (s.withEnc e) := rfl
@[simp] theorem encRow_false (e : Enc) (s : State) : encRow false e s = .next s := rfl

theorem decRow_cases {fires : Bool} {d : Dec} {s t : State} (h : decRow fires d s = .next t) :
    (fires = true ∧ t = s.withDec d) ∨ (fires = false ∧ t = s) := by
  cases fires <;> simp_all

theorem encRow_cases {fires : Bool} {e : Enc} {s t : State} (h : encRow fires e s = .next t) :
    (fires = true ∧ t = s.withEnc e) ∨ (fires = false ∧ t = s) := by
  cases fires <;> simp_all

/-! Utilities. -/

theorem maskbit_iff (b : Byte) : maskbit b = true ↔ 128 ≤ b.toNat := by simp [maskbit, Config.maskBit]

theorem mark7_toNat {b : Byte} (h : 128 ≤ b.toNat) : (mark7 b).toNat = b.toNat - 128 := by
  have : b.toNat < 256 := b.isLt
  simp [mark7, maskbit, Config.maskBit, h]; omega

theorem be16_toNat (hi lo : Byte) : (be16 hi lo).toNat = hi.toNat * 256 + lo.toNat := by
  have := hi.isLt; have := lo.isLt; simp [be16]; omega

theorem hi8_toNat (n : Nat) : (hi8 n).toNat = n / 256 % 256 := by simp [hi8]
theorem lo8_toNat (n : Nat) : (lo8 n).toNat = n % 256 := by simp [lo8]

theorem isInline_iff (m : BitVec 7) : isInline m = true ↔ m.toNat ≤ 125 := by simp [isInline, Config.markInlineMax]
theorem isExt16_iff (m : BitVec 7) : isExt16 m = true ↔ m.toNat = 126 := by simp [isExt16, Config.markExt16]
theorem isExt64_iff (m : BitVec 7) : isExt64 m = true ↔ m.toNat = 127 := by simp [isExt64, Config.markExt64]
theorem fitsShort_iff (n : Nat) : fitsShort n = true ↔ n ≤ 125 := by simp [fitsShort, Config.markInlineMax]
theorem fitsExt16_iff (max : Config.EncMax) (n : Nat) : fitsExt16 max n = true ↔ 125 < n ∧ n ≤ max.val := by
  simp [fitsExt16, Config.markInlineMax]
theorem tooLarge_iff (max : Config.EncMax) (n : Nat) : tooLarge max n = true ↔ max.val < n := by simp [tooLarge]

theorem encMax_bounds (max : Config.EncMax) : 65535 ≤ max.val ∧ max.val ≤ 65536 := by cases max <;> decide

theorem unmaskFrom_length (key : Key) (i : Nat) (q : List Byte) : (unmaskFrom key i q).length = q.length := by
  induction q generalizing i with
  | nil => rfl
  | cons m q ih => simp [unmaskFrom, ih]

theorem unmaskFrom_append (key : Key) (i : Nat) (q r : List Byte) :
    unmaskFrom key i (q ++ r) = unmaskFrom key i q ++ unmaskFrom key (i + q.length) r := by
  induction q generalizing i with
  | nil => rfl
  | cons m q ih => simp [unmaskFrom, ih, Nat.add_assoc, Nat.add_comm 1]

theorem utf8Valid_nil (rule : Config.TextRule) : utf8Valid rule [] = true := by cases rule <;> rfl

/-! The decoder unit. -/

/-- Header byte 1 with the mask bit: short, 16-bit or 64-bit class (R163 to R166). -/
theorem Dec.takeByte1_cases (b : Byte) (d : Dec) :
    (isInline (mark7 b) = true ∧ d.takeByte1 b = d.takeShort (mark7 b)) ∨
    (isInline (mark7 b) = false ∧ isExt16 (mark7 b) = true ∧ d.takeByte1 b = d.takeExt16) ∨
    (isInline (mark7 b) = false ∧ isExt16 (mark7 b) = false ∧ d.takeByte1 b = d.takeExt64) := by
  unfold Dec.takeByte1
  cases isInline (mark7 b) <;> cases isExt16 (mark7 b) <;> simp

/-- A key byte: one of the first three, or the fourth with or without a payload after it (R169). -/
theorem Dec.takeKey_cases (b : Byte) (d : Dec) :
    (d.kidx.toNat < 3 ∧
      d.takeKey b = { d with key := setKeyByte d.key d.kidx.toNat b, kidx := d.kidx + 1 }) ∨
    (d.kidx.toNat = 3 ∧ d.len = 0 ∧
      d.takeKey b = ({ d with key := setKeyByte d.key d.kidx.toNat b, idx := 0, st := .chk }).forgetKidx) ∨
    (d.kidx.toNat = 3 ∧ d.len ≠ 0 ∧
      d.takeKey b = ({ d with key := setKeyByte d.key d.kidx.toNat b, idx := 0, st := .pay }).forgetKidx) := by
  have hk := d.kidx.isLt
  unfold Dec.takeKey
  by_cases h : d.kidx.toNat < 3
  · exact .inl ⟨h, by rw [if_pos h]⟩
  · have h3 : d.kidx.toNat = 3 := by omega
    rw [if_neg h]
    by_cases hl : d.len = 0
    · exact .inr (.inl ⟨h3, hl, if_pos hl⟩)
    · exact .inr (.inr ⟨h3, hl, if_neg hl⟩)

/-- A payload byte: the last, or one before it (R170). -/
theorem Dec.takePayload_cases (b : Byte) (d : Dec) :
    (d.idx + 1 = d.len ∧ d.takePayload b = ({ d.storePayload b with st := .chk }).forgetKey) ∨
    (d.idx + 1 ≠ d.len ∧ d.takePayload b = d.storePayload b) := by
  unfold Dec.takePayload
  by_cases h : d.idx + 1 = d.len
  · exact .inl ⟨h, by rw [if_pos h]⟩
  · exact .inr ⟨h, by rw [if_neg h]⟩

/-- The text check: delivered or refused (R172). -/
theorem Dec.check_cases (rule : Config.TextRule) (d : Dec) :
    (utf8Valid rule d.payload = true ∧ d.check rule = { d with st := .done }) ∨
    (utf8Valid rule d.payload = false ∧ d.check rule = d.raise .invalidEncoding) := by
  unfold Dec.check
  cases utf8Valid rule d.payload <;> simp

/-- A read: the byte of the result, or an unspecified one (R174, U7). -/
theorem Dec.readByte_cases (i : Nat) (d : Dec) :
    (d.inWindow i = true ∧
      d.readByte i = { d with rd := some ((Memory.read d.buf i).getD (Config.decUnwritten i)) }) ∨
    (d.inWindow i = false ∧ d.readByte i = { d with rd := some (Config.decFree 8 d.free), free := d.free + 1 }) := by
  unfold Dec.readByte
  cases d.inWindow i <;> simp

/-! The encoder unit. -/

/-- An invocation: one of the three classes of R149 (R190). -/
theorem Enc.invoke_cases (max : Config.EncMax) (n : Nat) (e : Enc) :
    (n ≤ 125 ∧ e.invoke max n = e.startShort n) ∨
    (125 < n ∧ n ≤ max.val ∧ e.invoke max n = e.startExt16 n) ∨
    (max.val < n ∧ e.invoke max n = e.refuse) := by
  have hb := encMax_bounds max
  unfold Enc.invoke
  by_cases h : n ≤ 125
  · exact .inl ⟨h, by rw [if_pos ((fitsShort_iff n).mpr h)]⟩
  · rw [if_neg (by simpa [fitsShort_iff] using h)]
    by_cases h' : n ≤ max.val
    · exact .inr (.inl ⟨by omega, h', by rw [if_pos ((fitsExt16_iff max n).mpr ⟨by omega, h'⟩)]⟩)
    · exact .inr (.inr ⟨by omega, by rw [if_neg fun hc => h' ((fitsExt16_iff max n).mp hc).2]⟩)

/-- A payload byte: the last, or one before it (R194). -/
theorem Enc.takePayload_cases (b : Byte) (e : Enc) :
    (e.idx + 1 = e.n ∧ e.takePayload b = { e.storePayload b with tot := e.hlen.setWidth 17 + e.n, st := .done }) ∨
    (e.idx + 1 ≠ e.n ∧ e.takePayload b = e.storePayload b) := by
  unfold Enc.takePayload
  by_cases h : e.idx + 1 = e.n
  · exact .inl ⟨h, by rw [if_pos h]⟩
  · exact .inr ⟨h, by rw [if_neg h]⟩

/-- A read: the byte of the frame, or an unspecified one (R196, U7). -/
theorem Enc.readByte_cases (i : Nat) (e : Enc) :
    (e.inWindow i = true ∧
      e.readByte i = { e with rd := some ((Memory.read e.buf i).getD (Config.encUnwritten i)) }) ∨
    (e.inWindow i = false ∧ e.readByte i = { e with rd := some (Config.encFree 8 e.free), free := e.free + 1 }) := by
  unfold Enc.readByte
  cases e.inWindow i <;> simp

/-! The step. -/

/-- A step is the run of what `fetch` chose, or the environment moving on, or a refused wire form. -/
theorem step_cases {s t : State} (h : step s = .next t) :
    (∃ i u, fetch s = .run i u ∧ exec i u = .next t) ∨ fetch s = .pass t := by
  unfold step at h
  cases hf : fetch s with
  | run i u => rw [hf] at h; exact .inl ⟨i, u, rfl, h⟩
  | pass u => rw [hf] at h; cases h; exact .inr rfl
  | reject e => rw [hf] at h; cases h

end Sys2Proof.Machine
end

