-- ==== Sys2Proof/Laws/PerInstr.lean ====
section
/-! SUPPORT. A statement about every instruction as syntax, one lemma per constructor: the shape of its encoding. -/

namespace Sys2Proof.Laws.EncodedShape

/-- An instruction that has an encoding has 1 byte, 2 or 4 (R100, R120). -/
def Statement (i : Instr) : Prop :=
  match encode i with
  | some (_, bs) => bs.length = 1 ∨ bs.length = 2 ∨ bs.length = 4
  | none => True

theorem cfB0Any (b : Byte) : Statement (.cfB0Any b) := .inl rfl
theorem cfB1Unmasked (m : BitVec 7) : Statement (.cfB1Unmasked m) := .inl rfl
theorem cfB1Short (m : BitVec 7) : Statement (.cfB1Short m) := .inl rfl
theorem cfB1Ext16 : Statement (.cfB1Ext16) := .inl rfl
theorem cfB1Ext64 : Statement (.cfB1Ext64) := .inl rfl
theorem sfShort (n : BitVec 7) : Statement (.sfShort n) := .inr (.inl rfl)
theorem sfExt16 (n : Nat) : Statement (.sfExt16 n) := .inr (.inr rfl)
theorem sfTooLarge (n : Nat) : Statement (.sfTooLarge n) := trivial
theorem decInvoke : Statement (.decInvoke) := trivial
theorem decB0 (b : Byte) : Statement (.decB0 b) := trivial
theorem decB1Unmasked (b : Byte) : Statement (.decB1Unmasked b) := trivial
theorem decB1 (b : Byte) : Statement (.decB1 b) := trivial
theorem decB1Short (b : Byte) : Statement (.decB1Short b) := trivial
theorem decB1Ext16 : Statement (.decB1Ext16) := trivial
theorem decB1Ext64 : Statement (.decB1Ext64) := trivial
theorem decXh (b : Byte) : Statement (.decXh b) := trivial
theorem decXl (b : Byte) : Statement (.decXl b) := trivial
theorem decKey (b : Byte) : Statement (.decKey b) := trivial
theorem decPay (b : Byte) : Statement (.decPay b) := trivial
theorem decRxFail : Statement (.decRxFail) := trivial
theorem decCheck : Statement (.decCheck) := trivial
theorem decIgnore (e : DecEvent) : Statement (.decIgnore e) := trivial
theorem decRead (i : BitVec 16) : Statement (.decRead i) := trivial
theorem encInvoke (n : Nat) : Statement (.encInvoke n) := trivial
theorem encShort (n : Nat) : Statement (.encShort n) := trivial
theorem encExt16 (n : Nat) : Statement (.encExt16 n) := trivial
theorem encTooLarge (n : Nat) : Statement (.encTooLarge n) := trivial
theorem encPay (b : Byte) : Statement (.encPay b) := trivial
theorem encIgnore (e : EncEvent) : Statement (.encIgnore e) := trivial
theorem encRead (i : BitVec 17) : Statement (.encRead i) := trivial
theorem reset : Statement (.reset) := trivial
theorem maskbit (b : Byte) : Statement (.maskbit b) := trivial
theorem mark7 (b : Byte) : Statement (.mark7 b) := trivial
theorem be16 (hi lo : Byte) : Statement (.be16 hi lo) := trivial
theorem hi8 (n : Nat) : Statement (.hi8 n) := trivial
theorem lo8 (n : Nat) : Statement (.lo8 n) := trivial
theorem unmask1 (m : Byte) (key : Key) (i : Nat) : Statement (.unmask1 m key i) := trivial
theorem unmask (key : Key) (q : List Byte) : Statement (.unmask key q) := trivial
theorem isInline (m : BitVec 7) : Statement (.isInline m) := trivial
theorem isExt16 (m : BitVec 7) : Statement (.isExt16 m) := trivial
theorem isExt64 (m : BitVec 7) : Statement (.isExt64 m) := trivial
theorem fitsShort (n : Nat) : Statement (.fitsShort n) := trivial
theorem fitsExt16 (n : Nat) : Statement (.fitsExt16 n) := trivial
theorem tooLarge (n : Nat) : Statement (.tooLarge n) := trivial
theorem utf8Valid (p : List Byte) : Statement (.utf8Valid p) := trivial
theorem decodeFrame (s : List Byte) (fail : Bool) : Statement (.decodeFrame s fail) := trivial
theorem encodeMessage (p : List Byte) : Statement (.encodeMessage p) := trivial

end Sys2Proof.Laws.EncodedShape
end

