-- ==== Sys2Proof/Tests/Slice0.lean ====
section
/-! SUPPORT. Own tests: ill-formed terms refused, words written out from the spec's encodings, one-step tests whose expected results
are the vectors of 95_test_vectors, and for every statement with hypotheses a witness that meets them. -/

namespace Sys2Proof.Tests

open Sys2Proof Sys2Proof.Machine

/-! WellFormed: for each check an ill-formed term it refuses (the operand ranges of R109, R120, R142 to R149, R210). -/

theorem test_wf_markers : [Instr.cfB1Short 126, .sfShort 126].all (fun i => !i.wf) = true := by decide
theorem test_wf_lengths :
    [Instr.sfExt16 125, .sfExt16 65537, .sfTooLarge 65535, .sfTooLarge 4294967296, .encInvoke 4294967296, .encShort 126,
     .encExt16 125, .encExt16 65537, .encTooLarge 65535, .encTooLarge 4294967296, .encIgnore (.invoke 4294967296),
     .hi8 4294967296, .lo8 4294967296, .fitsShort 4294967296, .fitsExt16 4294967296, .tooLarge 4294967296].all (fun i => !i.wf)
      = true := by decide
theorem test_wf_bytes :
    [Instr.decB1Unmasked 128, .decB1 127, .decB1Short 127, .decB1Short 254, .mark7 127, .unmask1 0 ⟨0, 0, 0, 0⟩ 65535].all
      (fun i => !i.wf) = true := by decide
theorem test_wf_sequences (key : Key) :
    Instr.wf (.unmask key (List.replicate 65536 0)) = false ∧ Instr.wf (.utf8Valid (List.replicate 65536 0)) = false ∧
    Instr.wf (.encodeMessage (List.replicate 4294967296 0)) = false := by
  simp only [Instr.wf, lengthFits, List.length_replicate]; decide
theorem test_wf_accepts :
    [Instr.cfB1Short 125, .sfShort 125, .sfExt16 126, .sfExt16 65536, .sfTooLarge 65537, .decB1Short 0xFD, .encInvoke 4294967295].all
      Instr.wf = true := by decide

/-! Decoding: words bit by bit from R101, R102, R109, R120 to R123; for each constructor with an encoding at least one. -/

theorem test_decode_cfB0Any : decode .cfByte0 [0b10000001] = .ok (.cfB0Any 0x81) := by decide
theorem test_decode_cfB1Unmasked : decode .cfByte1 [0b01111111] = .ok (.cfB1Unmasked 127) := by decide
theorem test_decode_cfB1Short : decode .cfByte1 [0b10000101] = .ok (.cfB1Short 5) := by decide
theorem test_decode_cfB1Ext16 : decode .cfByte1 [0b11111110] = .ok .cfB1Ext16 := by decide
theorem test_decode_cfB1Ext64 : decode .cfByte1 [0b11111111] = .ok .cfB1Ext64 := by decide
/-- `81 7D`, S3. -/
theorem test_decode_sfShort : decode .sfHeader [0b10000001, 0b01111101] = .ok (.sfShort 125) := by decide
/-- `81 7E 01 2C`, R192's example. -/
theorem test_decode_sfExt16 : decode .sfHeader [0b10000001, 0b01111110, 0b00000001, 0b00101100] = .ok (.sfExt16 300) := by decide
/-- `81 7E 00 00`, S3 and R123: the length 65536. -/
theorem test_decode_sfExt16_max : decode .sfHeader [0x81, 0x7E, 0x00, 0x00] = .ok (.sfExt16 65536) := by decide
/-- R125: a 16-bit value below 126, other than 0, is never produced. -/
theorem test_decode_rejects :
    decode .sfHeader [0x81, 0x7E, 0x00, 0x7D] = .error .nonMinimal ∧ decode .sfHeader [0x81] = .error .truncated ∧
    decode .sfHeader [0x81, 0x02, 0x48] = .error .trailing ∧ decode .sfHeader [0x81, 0xFE, 0, 0] = .error .maskedServerFrame ∧
    decode .cfByte1 [] = .error .truncated ∧ decode .cfByte0 [0x81, 0x82] = .error .trailing := by decide
/-- The boundaries R200 gives: `81 00`, `81 7D`, `81 7E 00 7E`, `81 7E 00 00`. -/
theorem test_encode_headers :
    encode (.sfShort 0) = some (.sfHeader, [0x81, 0x00]) ∧ encode (.sfShort 125) = some (.sfHeader, [0x81, 0x7D]) ∧
    encode (.sfExt16 126) = some (.sfHeader, [0x81, 0x7E, 0x00, 0x7E]) ∧
    encode (.sfExt16 65536) = some (.sfHeader, [0x81, 0x7E, 0x00, 0x00]) := by decide
/-- Table words as opcode_table.json numbers them: SF.SHORT's fixed bits 15:7 stand above its length. -/
theorem test_tableWord :
    decodeTableWord 8 0xFE = some .cfB1Ext16 ∧ decodeTableWord 16 0b1000000100000010 = some (.sfShort 2) ∧
    decodeTableWord 32 0x817E012C = some (.sfExt16 300) := by decide

/-! States for the one-step tests. -/

/-- Reset with another decoder unit. -/
def decAt (d : Dec) : State := { State.reset with dec := d }
/-- Reset with another encoder unit. -/
def encAt (e : Enc) : State := { State.reset with enc := e }
/-- The decoder in a state that awaits a header or length byte. -/
def hdr (st : DecSt) : State := decAt { Dec.reset with st := st }
/-- V1 in `D_PAY` with its second payload byte due. -/
def payDec : Dec :=
  { Dec.reset with st := .pay, mark := 2, lenLo := 2, key := ⟨1, 2, 3, 4⟩, idx := 1, buf := [(0, 0x47)] }
/-- V1 in `D_CHK`. -/
def chkDec : Dec := { payDec with st := .chk, idx := 2, buf := [(0, 0x47), (1, 0x35)] }
/-- V1 in `D_DONE`. -/
def doneDec : Dec := { chkDec with st := .done }
/-- V9 in `D_CHK`: the unmasked bytes are `C3 28`. -/
def badDec : Dec := { payDec with st := .chk, idx := 2, buf := [(0, 0xC3), (1, 0x28)] }
/-- The decoder in `D_KEY`. -/
def keyDec (kidx : BitVec 2) (len : Byte) : Dec :=
  { Dec.reset with st := .key, mark := len.setWidth 7, lenLo := len, kidx := kidx, key := ⟨1, 2, 3, 0⟩ }
/-- The decoder in `D_ERR` after V11. -/
def errDec : Dec := { Dec.reset with st := .err, err := .unsupportedFrameSize, mark := 127 }
/-- E2 in `E_PAY` with its second payload byte due. -/
def payEnc : Enc := { Enc.reset with st := .pay, n := 2, hlen := 2, idx := 1, buf := [(0, 0x81), (1, 0x02), (2, 0x48)] }
/-- E2 in `E_DONE`. -/
def doneEnc : Enc := { payEnc with st := .done, idx := 2, tot := 4, buf := [(0, 0x81), (1, 0x02), (2, 0x48), (3, 0x69)] }
/-- The encoder in `E_ERR`. -/
def errEnc : Enc := { Enc.reset with st := .err, err := .messageTooLarge }
/-- What a result has, where it is a next state. -/
def got {α : Type} (r : Result) (f : State → α) : Option α :=
  match r with
  | .next t => some (f t)
  | .fault _ => none
  | .refused _ => none

/-! One step per instruction. -/

theorem test_decInvoke : got (exec .decInvoke (decAt doneDec)) (fun t => (t.dec.st, t.dec.buf, t.decBusy)) = some (.b0, [], true) := by
  decide
theorem test_decB0 : got (exec (.decB0 0x88) (hdr .b0)) (fun t => t.dec.st) = some .b1 := by decide
theorem test_cfB0Any : got (exec (.cfB0Any 0x00) (hdr .b0)) (fun t => t.dec.st) = some .b1 := by decide
/-- V13: `81 7F` raises 5, not 1. -/
theorem test_decB1Unmasked : got (exec (.decB1Unmasked 0x7F) (hdr .b1)) (fun t => (t.dec.st, t.dec.err.code)) = some (.err, 5) := by
  decide
theorem test_cfB1Unmasked : got (exec (.cfB1Unmasked 5) (hdr .b1)) (fun t => (t.dec.err.code, t.dec.mark)) = some (5, 0) := by decide
/-- P1 step 3: `87` gives `DEC_MARK = 7`, `DEC_LEN = 7`, `D_KEY`. -/
theorem test_decB1 : got (exec (.decB1 0x87) (hdr .b1)) (fun t => (t.dec.mark, t.dec.len, t.dec.st)) = some (7, 7, .key) := by decide
theorem test_decB1Short : got (exec (.decB1Short 0xFD) (hdr .b1)) (fun t => (t.dec.len, t.dec.kidx)) = some (125, 0) := by decide
theorem test_cfB1Short : got (exec (.cfB1Short 2) (hdr .b1)) (fun t => (t.dec.len, t.dec.st)) = some (2, .key) := by decide
theorem test_decB1Ext16 : got (exec .decB1Ext16 (hdr .b1)) (fun t => (t.dec.mark, t.dec.st)) = some (126, .xh) := by decide
theorem test_cfB1Ext16 : got (exec .cfB1Ext16 (hdr .b1)) (fun t => (t.dec.mark, t.dec.st)) = some (126, .xh) := by decide
/-- V11. -/
theorem test_decB1Ext64 :
    got (exec .decB1Ext64 (hdr .b1)) (fun t => (t.dec.st, t.dec.err.code, t.dec.mark, t.rxReady)) = some (.err, 1, 127, false) := by
  decide
theorem test_cfB1Ext64 : got (exec .cfB1Ext64 (hdr .b1)) (fun t => (t.dec.err.code, t.fatal)) = some (1, true) := by decide
theorem test_decXh : got (exec (.decXh 0x01) (hdr .xh)) (fun t => (t.dec.lenHi, t.dec.st)) = some (0x01, .xl) := by decide
/-- R168: after `01`, `2C` gives 300. -/
theorem test_decXl :
    got (exec (.decXl 0x2C) (decAt { Dec.reset with st := .xl, lenHi := 1 })) (fun t => (t.dec.len, t.dec.st)) = some (300, .key) := by
  decide
/-- P1 step 7: the fourth key byte. -/
theorem test_decKey_last :
    got (exec (.decKey 4) (decAt (keyDec 3 2))) (fun t => (t.dec.key, t.dec.idx, t.dec.st)) = some (⟨1, 2, 3, 4⟩, 0, .pay) := by decide
/-- V3: no payload byte is awaited where the length is 0. -/
theorem test_decKey_empty : got (exec (.decKey 0xDD) (decAt (keyDec 3 0))) (fun t => (t.dec.st, t.rxReady)) = some (.chk, false) := by
  decide
/-- V1: `37` XOR `02` = `35` at index 1 ends the payload. -/
theorem test_decPay :
    got (exec (.decPay 0x37) (decAt payDec)) (fun t => (t.dec.buf, t.dec.idx, t.dec.st)) = some ([(0, 0x47), (1, 0x35)], 2, .chk) := by
  decide
/-- V2: index 4 uses key byte 0 again: `58` XOR `37` = `6F`. -/
theorem test_decPay_keyReuse :
    got (exec (.decPay 0x58) (decAt { payDec with lenLo := 9, key := ⟨0x37, 0xFA, 0x21, 0x3D⟩, idx := 4, buf := [] }))
      (fun t => (t.dec.buf, t.dec.st)) = some ([(4, 0x6F)], .pay) := by decide
/-- V14: `RxFail` in `D_KEY`. -/
theorem test_decRxFail : got (exec .decRxFail (decAt (keyDec 2 2))) (fun t => (t.dec.st, t.dec.err.code)) = some (.err, 4) := by decide
theorem test_decCheck : got (exec .decCheck (decAt chkDec)) (fun t => (t.dec.st, t.dec.err.code)) = some (.done, 0) := by decide
/-- V9. -/
theorem test_decCheck_bad : got (exec .decCheck (decAt badDec)) (fun t => (t.dec.st, t.dec.err.code)) = some (.err, 3) := by decide
/-- X8: a failure in `D_DONE` is not seen. -/
theorem test_decIgnore : got (deliver (.dec .rxFail) (decAt doneDec)) (fun t => t.dec) = some doneDec := by decide
theorem test_decRead : got (exec (.decRead 1) (decAt doneDec)) (fun t => t.dec.rd) = some (some 0x35) := by decide
/-- E16: `EncInvoke(1)` from `E_DONE` gives up the frame. -/
theorem test_encInvoke :
    got (exec (.encInvoke 1) (encAt doneEnc)) (fun t => (t.enc.st, t.enc.tot, t.enc.buf)) = some (.pay, 0, [(0, 0x81), (1, 0x01)]) := by
  decide
/-- E0. -/
theorem test_encShort_empty :
    got (exec (.encShort 0) State.reset) (fun t => (t.enc.st, t.enc.hlen, t.enc.tot, t.enc.buf)) =
      some (.done, 2, 2, [(0, 0x81), (1, 0x00)]) := by decide
theorem test_sfShort : got (exec (.sfShort 2) State.reset) (fun t => (t.enc.st, t.enc.buf)) = some (.pay, [(0, 0x81), (1, 0x02)]) := by
  decide
/-- E8. -/
theorem test_encExt16 :
    got (exec (.encExt16 300) State.reset) (fun t => (t.enc.st, t.enc.hlen, t.enc.buf)) =
      some (.pay, 4, [(0, 0x81), (1, 0x7E), (2, 0x01), (3, 0x2C)]) := by decide
/-- E10: the length 65536 is framed as `00 00`. -/
theorem test_sfExt16 :
    got (exec (.sfExt16 65536) State.reset) (fun t => (t.enc.n, t.enc.buf)) =
      some (65536, [(0, 0x81), (1, 0x7E), (2, 0x00), (3, 0x00)]) := by decide
/-- E11. -/
theorem test_encTooLarge :
    got (exec (.encTooLarge 65537) State.reset) (fun t => (t.enc.st, t.enc.err.code, t.enc.tot, t.enc.buf)) = some (.err, 2, 0, []) := by
  decide
/-- E10': 65536 with `ENC_MAX_N = 65535`. -/
theorem test_sfTooLarge :
    got (exec (.sfTooLarge 65536) { State.reset with par := { encMax := .n65535, text := .standard } })
      (fun t => (t.enc.st, t.enc.err.code)) = some (.err, 2) := by decide
/-- E2: the last byte. -/
theorem test_encPay :
    got (exec (.encPay 0x69) (encAt payEnc)) (fun t => (t.enc.st, t.enc.tot, t.enc.frame)) =
      some (.done, 4, [0x81, 0x02, 0x48, 0x69]) := by decide
/-- E15: invoke while busy. -/
theorem test_encIgnore : got (deliver (.enc (.invoke 5)) (encAt payEnc)) (fun t => t.enc) = some payEnc := by decide
theorem test_encRead : got (exec (.encRead 3) (encAt doneEnc)) (fun t => t.enc.rd) = some (some 0x69) := by decide
/-- X5: reset during `D_PAY`. -/
theorem test_reset :
    got (exec .reset (decAt payDec)) (fun t => (t.dec.st, t.dec.err, t.enc.st, t.enc.tot, t.rxReady)) =
      some (.idle, .none, .idle, 0, false) := by decide

/-! Functions: 95_test_vectors 2.1 to 2.4. -/

theorem test_maskbit : (maskbit 0x80, maskbit 0x7F, maskbit 0xFF) = (true, false, true) := by decide
theorem test_mark7 : ([0x80, 0x85, 0xFD, 0xFE, 0xFF] : List Byte).map mark7 = [0, 5, 125, 126, 127] := by decide
theorem test_be16 : (be16 0x00 0x7E, be16 0x01 0x2C, be16 0xFF 0xFF) = (126, 300, 65535) := by decide
theorem test_hi8 : [126, 255, 256, 300, 65535, 65536].map hi8 = [0x00, 0x00, 0x01, 0x01, 0xFF, 0x00] := by decide
theorem test_lo8 : [126, 255, 256, 300, 65535, 65536].map lo8 = [0x7E, 0xFF, 0x00, 0x2C, 0xFF, 0x00] := by decide
theorem test_unmask1 :
    (unmask1 0x46 ⟨1, 2, 3, 4⟩ 0, unmask1 0x37 ⟨1, 2, 3, 4⟩ 1, unmask1 0x54 ⟨0x11, 0x22, 0x33, 0x44⟩ 4) = (0x47, 0x35, 0x45) := by
  decide
/-- S1. -/
theorem test_unmask : unmask ⟨1, 2, 3, 4⟩ [0x46, 0x37] = [0x47, 0x35] := by decide
theorem test_isInline : [125, 126, 127].map isInline = [true, false, false] := by decide
theorem test_isExt16 : [125, 126, 127].map isExt16 = [false, true, false] := by decide
theorem test_isExt64 : [125, 126, 127].map isExt64 = [false, false, true] := by decide
theorem test_fitsShort : [125, 126, 65536, 65537].map fitsShort = [true, false, false, false] := by decide
theorem test_fitsExt16 :
    ([125, 126, 65536, 65537].map (fitsExt16 .n65536), fitsExt16 .n65535 65536) = ([false, true, true, false], false) := by decide
theorem test_tooLarge :
    ([125, 65536, 65537, 4294967295].map (tooLarge .n65536), tooLarge .n65535 65536) = ([false, false, true, true], true) := by decide
theorem test_utf8_valid :
    ([[], [0x47, 0x35], [0x7F], [0xC2, 0x80], [0xDF, 0xBF], [0xE0, 0xA0, 0x80], [0xE2, 0x82, 0xAC], [0xED, 0x9F, 0xBF],
      [0xEE, 0x80, 0x80], [0xEF, 0xBF, 0xBF], [0xEF, 0xBB, 0xBF, 0x41], [0xF0, 0x90, 0x80, 0x80], [0xF0, 0x9F, 0x98, 0x80],
      [0xF4, 0x8F, 0xBF, 0xBF]] : List (List Byte)).all utf8Standard = true := by decide
theorem test_utf8_invalid :
    ([[0x80], [0xBF], [0xC0, 0xAF], [0xC1, 0xBF], [0xC3], [0xC3, 0x28], [0xE0, 0x9F, 0xBF], [0xE2, 0x82], [0xED, 0xA0, 0x80],
      [0xF0, 0x8F, 0xBF, 0xBF], [0xF4, 0x90, 0x80, 0x80], [0xF5, 0x80, 0x80, 0x80], [0xFF], [0x41, 0xFF, 0x41]] :
      List (List Byte)).all (fun p => !utf8Standard p) = true := by decide
/-- V8, V5, V4, V9 and V15. -/
theorem test_decodeFrame :
    frameDecode .standard [0x81, 0x85, 0x0F, 0xF0, 0x55, 0xAA, 0xCC, 0x59, 0xB7, 0x28, 0xA3] false = .ok [0xC3, 0xA9, 0xE2, 0x82, 0xAC] ∧
    frameDecode .standard [0x81, 0xFE, 0, 3, 0x10, 0x20, 0x30, 0x40, 0x71, 0x42, 0x53] false = .ok [0x61, 0x62, 0x63] ∧
    frameDecode .standard [0x81, 0xFE, 0, 0, 0xAA, 0xBB, 0xCC, 0xDD] false = .ok [] ∧
    frameDecode .standard [0x81, 0x82, 1, 2, 3, 4, 0xC2, 0x2A] false = .error .invalidEncoding ∧
    frameDecode .standard [0x81, 0xFE, 0x01] true = .error .transportFailure := by decide
/-- V11, V12, V14w, V16 and V22. -/
theorem test_decodeFrame_errors :
    frameDecode .standard [0x81, 0xFF, 1, 2, 3, 4] false = .error .unsupportedFrameSize ∧
    frameDecode .standard [0x81, 0x05, 1, 2, 3, 4] false = .error .unmaskedFrame ∧
    frameDecode .standard [0x81, 0x82, 1, 2] false = .wait ∧ frameDecode .standard [] true = .error .transportFailure ∧
    frameDecode .standard [0x81, 0x00] false = .error .unmaskedFrame := by decide
/-- E2 and E13. -/
theorem test_encodeMessage :
    frameEncode .n65536 [0x48, 0x69] = .ok [0x81, 0x02, 0x48, 0x69] ∧
    frameEncode .n65536 [0xFF, 0xFE] = .ok [0x81, 0x02, 0xFF, 0xFE] := by decide

/-! The step. -/

/-- A wire form stored by `withFetchWord` is the first thing that runs after reset. -/
theorem test_step_fetches :
    got (step (State.reset.withFetchWord 8 0x85)) (fun t => (t.dec.st, t.dec.len)) = some (.key, 5) ∧
    got (step (State.reset.withFetchWord 16 0x8102)) (fun t => (t.enc.st, t.enc.n)) = some (.pay, 2) ∧
    got (step (State.reset.withFetchWord 32 0x817E012C)) (fun t => (t.enc.st, t.enc.n)) = some (.pay, 300) := by decide
/-- R34: a byte offered together with `rx_fail` is taken first. -/
theorem test_edge :
    edgeEvents (hdr .b0) ⟨false, false, true, 0x81, true, true, 3, false, 0⟩ = [.dec (.rxByte 0x81), .enc (.invoke 3)] := by decide

/-! Witnesses: for each statement with hypotheses, concrete values that meet them; for each clause one, at the ends of its range. -/

/-- The decoder of V1 meets the invariant in `D_PAY`. -/
theorem witness_inv_pay : (decAt payDec).Inv :=
  ⟨⟨by decide, by decide, by decide, by decide, by decide, by decide, by decide, by decide, by decide, by decide, by decide⟩,
   ⟨by decide, by decide, by decide, by decide, by decide, by decide, by decide, by decide, by decide, by decide, by decide, by decide,
    by decide⟩⟩
/-- The decoder of V1 meets the invariant in `D_DONE`. -/
theorem witness_inv_done : (decAt doneDec).Inv :=
  ⟨⟨by decide, by decide, by decide, by decide, by decide, by decide, by decide, by decide, by decide, by decide, by decide⟩,
   witness_inv_pay.enc⟩
/-- The encoder of E2 meets the invariant in `E_DONE`. -/
theorem witness_inv_encDone : (encAt doneEnc).Inv :=
  ⟨⟨by decide, by decide, by decide, by decide, by decide, by decide, by decide, by decide, by decide, by decide, by decide⟩,
   ⟨by decide, by decide, by decide, by decide, by decide, by decide, by decide, by decide, by decide, by decide, by decide, by decide,
    by decide⟩⟩

theorem witness_HeaderByteOneForms :
    (0x00 : Byte).toNat ≤ 0x7F ∧ (0x7F : Byte).toNat ≤ 0x7F ∧ 0x80 ≤ (0x80 : Byte).toNat ∧ (0xFD : Byte).toNat ≤ 0xFD ∧
    decode .cfByte1 [0x00] = .ok (.cfB1Unmasked 0) ∧ decode .cfByte1 [0x7F] = .ok (.cfB1Unmasked 127) ∧
    decode .cfByte1 [0x80] = .ok (.cfB1Short 0) ∧ decode .cfByte1 [0xFD] = .ok (.cfB1Short 125) := by decide
theorem witness_DecodeOfEncode :
    (Instr.sfExt16 65536).wf = true ∧ encode (.sfExt16 65536) = some (.sfHeader, [0x81, 0x7E, 0, 0]) ∧
    (Instr.cfB1Short 125).wf = true ∧ encode (.cfB1Short 125) = some (.cfByte1, [0xFD]) := by decide
theorem witness_EncodeOfDecode : decode .sfHeader [0x81, 0x7E, 0, 0x7E] = .ok (.sfExt16 126) := by decide
theorem witness_WireFormsRunTheirSteps :
    (hdr .b0).dec.st = .b0 ∧ decode .cfByte0 [0x00] = .ok (.cfB0Any 0x00) ∧
    (hdr .b1).dec.st = .b1 ∧ decode .cfByte1 [0xFF] = .ok .cfB1Ext64 := by decide

/-- A state with this environment. -/
def envAt (s : State) (inbox : List Stim) (rx : List Byte) (fail : Bool) (pl : List Byte) : State :=
  { s with env := { inbox := inbox, rx := rx, rxFail := fail, pl := pl } }

theorem witness_Step_host :
    (envAt State.reset [.event (.dec .invoke)] [] false []).env.inbox = .event (.dec .invoke) :: [] ∧
    (envAt (hdr .b1) [.wire .cfByte1 [0x85]] [] false []).env.inbox = .wire .cfByte1 [0x85] :: [] ∧
    decode .cfByte1 [0x85] = .ok (.cfB1Short 5) ∧
    (envAt State.reset [.apply (.lo8 300)] [] false []).env.inbox = .apply (.lo8 300) :: [] ∧
    (envAt State.reset [.edge ⟨true, false, false, 0, false, false, 0, false, 0⟩] [] false []).env.inbox =
      .edge ⟨true, false, false, 0, false, false, 0, false, 0⟩ :: [] ∧
    (envAt State.reset [.await .decoder] [] false []).env.inbox = .await .decoder :: [] ∧
    State.reset.unitFinished .decoder = true := by decide
theorem witness_Step_refuses :
    (envAt (hdr .b1) [.wire .sfHeader [0x81, 0x7F]] [] false []).env.inbox = .wire .sfHeader [0x81, 0x7F] :: [] ∧
    decode .sfHeader [0x81, 0x7F] = .error .ext64ServerFrame := by decide
theorem witness_Step_check : (decAt chkDec).HostWaits ∧ (decAt chkDec).dec.st = .chk := ⟨.inl rfl, rfl⟩
theorem witness_Step_rx :
    (envAt (hdr .b0) [.await .decoder] [0x81] false []).HostWaits ∧ (envAt (hdr .b0) [.await .decoder] [0x81] false []).rxReady = true ∧
    (envAt (hdr .b0) [.await .decoder] [0x81] false []).env.rx = 0x81 :: [] := ⟨.inr ⟨.decoder, [], rfl, rfl⟩, rfl, rfl⟩
theorem witness_Step_fail :
    (envAt (hdr .xl) [] [] true []).HostWaits ∧ (envAt (hdr .xl) [] [] true []).rxReady = true ∧
    (envAt (hdr .xl) [] [] true []).env.rx = [] ∧ (envAt (hdr .xl) [] [] true []).env.rxFail = true := ⟨.inl rfl, rfl, rfl, rfl⟩
theorem witness_Step_pl :
    (envAt (encAt payEnc) [] [] false [0x69]).HostWaits ∧ (envAt (encAt payEnc) [] [] false [0x69]).dec.st ≠ .chk ∧
    (envAt (encAt payEnc) [] [] false [0x69]).rxReady = false ∧ (envAt (encAt payEnc) [] [] false [0x69]).plReady = true ∧
    (envAt (encAt payEnc) [] [] false [0x69]).env.pl = 0x69 :: [] := ⟨.inl rfl, by decide, rfl, rfl, rfl⟩
theorem witness_Step_waits :
    (hdr .key).HostWaits ∧ (hdr .key).dec.st ≠ .chk ∧ ((hdr .key).env.rx = [] ∧ (hdr .key).env.rxFail = false) ∧
    (hdr .key).plReady = false := ⟨.inl rfl, by decide, ⟨rfl, rfl⟩, rfl⟩

theorem witness_MarkerExtraction :
    got (exec (.mark7 0x80) State.reset) State.result = some (some (.marker 0)) ∧
    got (exec (.mark7 0xFF) State.reset) State.result = some (some (.marker 127)) := by decide
theorem witness_UnmaskingIsXorWithTheRepeatedKey : 1 < ([0x46, 0x37] : List Byte).length := by decide
theorem witness_TextCheckIsTotalAndAcceptsEmpty :
    got (exec (.utf8Valid []) (decAt doneDec)) State.result = some (some (.flag true)) ∧
    (decAt doneDec).par.text = State.reset.par.text := by decide
theorem witness_DefaultTextCheckIsTheTable :
    RowMatches [(0xF4, 0xF4), (0x80, 0x8F), (0x80, 0xBF), (0x80, 0xBF)] [0xF4, 0x8F, 0xBF, 0xBF] := by
  simp [RowMatches]
theorem witness_DecodeRowGivesEveryOutcome :
    clientFrame 0x81 ⟨1, 2, 3, 4⟩ [0x47, 0x35] = [0x81, 0x82, 1, 2, 3, 4, 0x46, 0x37] ∧
    clientFrame16 0x81 ⟨1, 2, 3, 4⟩ [] = [0x81, 0xFE, 0, 0, 1, 2, 3, 4] ∧ utf8Standard [0x47, 0x35] = true ∧
    utf8Standard [0xC3, 0x28] = false ∧ 7 < (clientFrame 0x81 ⟨1, 2, 3, 4⟩ [0x47, 0x35]).length ∧ (0x7F : Byte).toNat < 128 := by
  decide
/-- The longest payload the 16-bit class holds. -/
theorem witness_DecodeRow_longest : (List.replicate 65535 (0x61 : Byte)).length ≤ 65535 := by
  simp only [List.length_replicate]; decide
theorem witness_InvokeStartsAFrame :
    State.reset.dec.st = .idle ∧ (decAt doneDec).dec.st = .done ∧ (decAt payDec).dec.st ≠ .idle ∧ (decAt payDec).dec.st ≠ .done ∧
    got (exec .decInvoke (decAt payDec)) (fun t => t.dec) = some payDec := by decide
theorem witness_HeaderByteZeroIsDropped : (hdr .b0).dec.st = .b0 := rfl
theorem witness_UnmaskedFrameIsRaised : (hdr .b1).dec.st = .b1 ∧ (0x00 : Byte).toNat < 128 ∧ (0x7F : Byte).toNat < 128 := by decide
theorem witness_HeaderByteOneLatchesTheMarker :
    (hdr .b1).dec.st = .b1 ∧ 128 ≤ (0x80 : Byte).toNat ∧ (0x80 : Byte).toNat - 128 ≤ 125 ∧ (0xFD : Byte).toNat - 128 ≤ 125 ∧
    (0xFE : Byte).toNat - 128 = 126 ∧ (0xFF : Byte).toNat - 128 = 127 := by decide
theorem witness_InlineMarkerIsTheLength :
    (hdr .b1).dec.st = .b1 ∧ 0x80 ≤ (0x80 : Byte).toNat ∧ (0x80 : Byte).toNat ≤ 0xFD ∧ (0xFD : Byte).toNat ≤ 0xFD := by decide
theorem witness_MarkerOneTwentySixAndSeven : (hdr .b1).dec.st = .b1 := rfl
theorem witness_LengthBytes : (hdr .xh).dec.st = .xh ∧ (hdr .xl).dec.st = .xl := by decide
theorem witness_KeyBytesAreLatchedInOrder :
    (decAt (keyDec 2 2)).dec.st = .key ∧ (decAt (keyDec 2 2)).dec.kidx.toNat < 3 ∧ (decAt (keyDec 3 2)).dec.kidx.toNat = 3 ∧
    (decAt (keyDec 3 2)).dec.len.toNat = 2 ∧ (decAt (keyDec 3 0)).dec.len.toNat = 0 := by decide
theorem witness_PayloadByteIsUnmaskedAndStored :
    (decAt payDec).dec.st = .pay ∧ (decAt payDec).dec.idx.toNat < (decAt payDec).dec.len.toNat ∧
    (decAt payDec).dec.idx.toNat + 1 = (decAt payDec).dec.len.toNat ∧
    (decAt { payDec with idx := 0, buf := [] }).dec.idx.toNat + 1 < (decAt { payDec with idx := 0, buf := [] }).dec.len.toNat := by decide
theorem witness_TransportFailureStrikesAPendingRead :
    (hdr .b0).dec.st ∈ [DecSt.b0, .b1, .xh, .xl, .key, .pay] ∧ (decAt payDec).dec.st ∈ [DecSt.b0, .b1, .xh, .xl, .key, .pay] ∧
    State.reset.dec.st ∈ [DecSt.idle, .chk, .done, .err] ∧ (decAt errDec).dec.st ∈ [DecSt.idle, .chk, .done, .err] := by decide
theorem witness_TextCheckDecidesTheFrame :
    (decAt chkDec).dec.st = .chk ∧ ([0x47, 0x35] : List Byte).length = (decAt chkDec).dec.len.toNat ∧
    Memory.read (decAt chkDec).dec.buf 0 = some 0x47 ∧ Memory.read (decAt chkDec).dec.buf 1 = some 0x35 ∧
    utf8Valid (decAt chkDec).par.text [0x47, 0x35] = true ∧ utf8Valid (decAt badDec).par.text [0xC3, 0x28] = false ∧
    Memory.read (decAt badDec).dec.buf 0 = some 0xC3 ∧ Memory.read (decAt badDec).dec.buf 1 = some 0x28 := by decide
theorem witness_UnawaitedDecoderEventsAreIgnored :
    (decAt errDec).dec.st ∈ [DecSt.b0, .b1, .xh, .xl, .key, .pay, .chk, .err] ∧ State.reset.dec.st ∈ [DecSt.idle, .chk, .done, .err] ∧
    (decAt doneDec).dec.st ≠ .chk := by decide
theorem witness_ReadReturnsTheDecodedByte :
    (decAt doneDec).dec.st = .done ∧ (1 : BitVec 16).toNat < (decAt doneDec).dec.len.toNat ∧
    Memory.read (decAt doneDec).dec.buf (1 : BitVec 16).toNat = some 0x35 := by decide
/-- A read at the length is outside the window and still gives a byte. -/
theorem witness_Read_outside : ∃ b, got (exec (.decRead 2) (decAt doneDec)) (fun t => t.dec.rd) = some (some b) := ⟨_, rfl⟩
theorem witness_DecoderTransitionTable :
    ((decAt payDec).dec.st = .pay → (decAt payDec).dec.idx.toNat < (decAt payDec).dec.len.toNat) ∧
    ∃ t, deliver (.dec (.rxByte 0x37)) (decAt payDec) = .next t ∧ t.dec.st = .chk := ⟨by decide, _, rfl, by decide⟩
theorem witness_EachByteAdvancesThePositionByOne :
    (decAt payDec).rxReady = true ∧ (decAt payDec).dec.framePos = some 7 ∧
    got (deliver (.dec (.rxByte 0x37)) (decAt payDec)) (fun t => t.dec.framePos) = some (some 8) := by decide
theorem witness_DecoderRefinesDecode :
    State.reset.dec.st = .idle ∧ (decAt doneDec).dec.st = .done ∧
    frameDecode State.reset.par.text [0x81, 0x80, 0xAA, 0xBB, 0xCC, 0xDD] false = .ok [] := by decide
theorem witness_FrameIsTakenFromTheTransportAndNoMore :
    (envAt (hdr .b0) [] (clientFrame 0x81 ⟨1, 2, 3, 4⟩ [0x47, 0x35] ++ [0x81]) false []).env.inbox = [] ∧
    (envAt (hdr .b0) [] (clientFrame 0x81 ⟨1, 2, 3, 4⟩ [0x47, 0x35] ++ [0x81]) false []).dec.st = .b0 ∧
    (envAt (hdr .b0) [] (clientFrame 0x81 ⟨1, 2, 3, 4⟩ [0x47, 0x35] ++ [0x81]) false []).env.rx =
      [0x81, 0x82, 1, 2, 3, 4, 0x46, 0x37] ++ [0x81] ∧
    utf8Valid State.reset.par.text [0x47, 0x35] = true ∧ utf8Valid State.reset.par.text [0xC3, 0x28] = false := by decide
theorem witness_RefusedHeaderEndsTheReading :
    (envAt (hdr .b0) [] [0x81, 0x7F, 1] false []).env.inbox = [] ∧ (envAt (hdr .b0) [] [0x81, 0x7F, 1] false []).dec.st = .b0 ∧
    (envAt (hdr .b0) [] [0x81, 0x7F, 1] false []).enc.st ≠ .pay ∧
    (envAt (hdr .b0) [] [0x81, 0x7F, 1] false []).env.rx = 0x81 :: 0x7F :: [1] ∧ (0x7F : Byte).toNat < 128 ∧
    (envAt (hdr .b0) [] [0x81, 0xFF] false []).env.rx = 0x81 :: 0xFF :: [] := by decide
theorem witness_ShortHeaderIsBuilt : State.reset.enc.st = .idle ∧ (encAt doneEnc).enc.st = .done ∧ 0 ≤ 125 ∧ 125 ≤ 125 := by decide
theorem witness_ExtendedHeaderIsBuilt :
    State.reset.enc.st = .idle ∧ 125 < 126 ∧ 126 ≤ State.reset.par.encMax.val ∧ 65536 ≤ State.reset.par.encMax.val := by decide
theorem witness_TooLargeMessageIsRefused : State.reset.enc.st = .idle ∧ State.reset.par.encMax.val < 65537 := by decide
theorem witness_EncoderInvocationChoosesOneClass :
    (encAt doneEnc).enc.st = .done ∧ 125 < 126 ∧ 65536 ≤ (encAt doneEnc).par.encMax.val ∧ (encAt doneEnc).par.encMax.val < 65537 ∧
    (encAt payEnc).enc.st = .pay ∧ (encAt errEnc).enc.st = .err := by decide
theorem witness_PayloadByteIsCopied :
    (encAt payEnc).enc.st = .pay ∧ (encAt payEnc).enc.idx.toNat < (encAt payEnc).enc.n.toNat ∧
    (encAt payEnc).enc.payAddr < Config.encCap (encAt payEnc).par.encMax ∧
    (encAt payEnc).enc.idx.toNat + 1 = (encAt payEnc).enc.n.toNat ∧
    (encAt { payEnc with idx := 0 }).enc.idx.toNat + 1 < (encAt { payEnc with idx := 0 }).enc.n.toNat := by decide
theorem witness_UnawaitedEncoderEventsAreIgnored :
    (encAt payEnc).enc.st = .pay ∧ (encAt errEnc).enc.st = .err ∧ State.reset.enc.st = .idle ∧ (encAt doneEnc).enc.st = .done := by decide
theorem witness_ReadReturnsTheFrameByte :
    (encAt doneEnc).enc.st = .done ∧ (3 : BitVec 17).toNat < (encAt doneEnc).enc.tot.toNat ∧
    Memory.read (encAt doneEnc).enc.buf (3 : BitVec 17).toNat = some 0x69 := by decide
theorem witness_EncoderTransitionTable :
    ((encAt payEnc).enc.st = .pay → (encAt payEnc).enc.idx.toNat < (encAt payEnc).enc.n.toNat) ∧
    ∃ t, deliver (.enc (.plByte 0x69)) (encAt payEnc) = .next t ∧ t.enc.st = .done := ⟨by decide, _, rfl, by decide⟩
theorem witness_EncoderRefinesEncode :
    State.reset.enc.st = .idle ∧ (encAt doneEnc).enc.st = .done ∧ frameEncode State.reset.par.encMax [] = .ok [0x81, 0x00] := by decide
theorem witness_DecoderRefusesTheEncodersFrames :
    frameEncode State.reset.par.encMax [0x48, 0x69] = .ok [0x81, 0x02, 0x48, 0x69] ∧ State.reset.dec.st = .idle := by decide
theorem witness_StepKeepsTheInvariant :
    (decAt payDec).Inv ∧ ∃ t, step (decAt payDec) = .next t := ⟨witness_inv_pay, _, rfl⟩
theorem witness_EveryRowRunsUnderTheInvariant : (decAt payDec).Inv ∧ (decAt doneDec).Inv ∧ (encAt doneEnc).Inv :=
  ⟨witness_inv_pay, witness_inv_done, witness_inv_encDone⟩
theorem witness_ErrorEntryWritesTheseRegisters :
    (∃ t, exec (.decB1Unmasked 0) (hdr .b1) = .next t ∧ (hdr .b1).dec.st ≠ .err ∧ t.dec.st = .err) ∧
    (∃ t, exec .decB1Ext64 (hdr .b1) = .next t ∧ (hdr .b1).dec.st ≠ .err ∧ t.dec.st = .err ∧ t.dec.err = .unsupportedFrameSize) ∧
    (∃ t, exec (.encTooLarge 65537) State.reset = .next t ∧ State.reset.enc.st ≠ .err ∧ t.enc.st = .err) :=
  ⟨⟨_, rfl, by decide, by decide⟩, ⟨_, rfl, by decide, by decide, by decide⟩, ⟨_, rfl, by decide, by decide⟩⟩
theorem witness_ErrorIsKeptUntilReset :
    (∃ t, exec .decInvoke (decAt errDec) = .next t ∧ (decAt errDec).dec.st = .err) ∧
    (∃ t, exec (.encInvoke 2) (encAt errEnc) = .next t ∧ (encAt errEnc).enc.st = .err) := ⟨⟨_, rfl, rfl⟩, ⟨_, rfl, rfl⟩⟩
theorem witness_ErrorCodeIsWrittenByErrorAndResetOnly :
    (∃ t, exec .decCheck (decAt badDec) = .next t ∧ t.dec.err ≠ (decAt badDec).dec.err ∧ t.dec.st = .err) ∧
    ∃ t, exec (.encPay 0) State.reset = .next t ∧ t.enc.st = .idle := ⟨⟨_, rfl, by decide, by decide⟩, ⟨_, rfl, by decide⟩⟩
theorem witness_UnitsAreSeparate :
    (∃ t, deliver (.dec (.rxByte 0xFF)) (hdr .b1) = .next t) ∧ ∃ t, deliver (.enc (.invoke 65537)) State.reset = .next t :=
  ⟨⟨_, rfl⟩, ⟨_, rfl⟩⟩
theorem witness_DecoderAndEncoderEventsCommute :
    (∃ t, deliver (.dec (.rxByte 0xFF)) (hdr .b1) = .next t) ∧ ∃ u, deliver (.enc (.invoke 2)) (hdr .b1) = .next u :=
  ⟨⟨_, rfl⟩, ⟨_, rfl⟩⟩
theorem witness_RowsKeepParametersAndEnvironment : ∃ t, exec .reset (decAt payDec) = .next t := ⟨_, rfl⟩
/-- Two states that differ, in what `D_PAY` leaves without a value, and look alike through their windows. -/
theorem witness_NothingOutsideAWindowIsRead_dec :
    (decAt payDec).dec.view = (decAt { payDec with kidx := 3, buf := [(0, 0x47), (7, 0xFF)] }).dec.view ∧
    payDec ≠ { payDec with kidx := 3, buf := [(0, 0x47), (7, 0xFF)] } ∧
    (decAt doneDec).dec.view = (decAt { doneDec with idx := 0 }).dec.view := by decide
theorem witness_NothingOutsideAWindowIsRead_enc :
    (encAt doneEnc).enc.view = (encAt { doneEnc with idx := 0 }).enc.view ∧ doneEnc ≠ { doneEnc with idx := 0 } ∧
    (encAt payEnc).par = (encAt { payEnc with buf := payEnc.buf ++ [(9, 1)] }).par ∧
    (encAt payEnc).enc.view = (encAt { payEnc with buf := payEnc.buf ++ [(9, 1)] }).enc.view := by decide
theorem witness_EdgeCarriesItsEvents :
    edgeEvents (hdr .b0) ⟨true, true, true, 0x81, false, false, 0, false, 0⟩ = [.reset] ∧
    (hdr .b0).rxReady = true ∧ (decAt chkDec).dec.st = .chk ∧ (encAt payEnc).plReady = true ∧
    edgeEvents (decAt chkDec) ⟨false, true, false, 0, false, false, 0, false, 0⟩ = [.dec .invoke, .dec .check] := by decide
theorem witness_RowsOutsideTheirConditions :
    State.reset.dec.st ≠ .b0 ∧ State.reset.dec.st ≠ .b1 ∧ State.reset.dec.st ≠ .xh ∧ State.reset.dec.st ≠ .xl ∧
    State.reset.dec.st ≠ .key ∧ State.reset.dec.st ≠ .pay ∧ State.reset.rxReady = false ∧ State.reset.dec.st ≠ .chk ∧
    (encAt payEnc).enc.st = .pay ∧ (encAt errEnc).enc.st = .err ∧ State.reset.enc.st ≠ .pay ∧ (0x7F : Byte).toNat < 128 ∧
    (decAt { payDec with idx := 65535 }).dec.st = .pay ∧ Config.decCap ≤ (decAt { payDec with idx := 65535 }).dec.idx.toNat ∧
    (encAt { payEnc with idx := 65538 }).enc.st = .pay ∧
    Config.encCap (encAt payEnc).par.encMax ≤ (encAt { payEnc with idx := 65538 }).enc.payAddr := by decide
/-- Operands at the ends of what does not select their row. -/
theorem witness_RowsOutside_operands :
    128 ≤ (0x80 : Byte).toNat ∧ (0x7F : Byte).toNat < 0x80 ∧ 0xFD < (0xFE : Byte).toNat ∧ 125 < (126 : BitVec 7).toNat ∧ 125 < 126 ∧
    125 ≤ 125 ∧ ({ State.reset with par := { encMax := .n65535, text := .standard } } : State).par.encMax.val < 65536 ∧
    65536 ≤ State.reset.par.encMax.val ∧ got (exec (.decB1Short 0xFE) (hdr .b1)) (fun t => t.dec) = some (hdr .b1).dec ∧
    got (exec (.sfTooLarge 65536) State.reset) (fun t => t.enc) = some State.reset.enc := by decide
/-- The length, error and read-data ports in the states where the port table gives them a meaning. -/
theorem witness_StatusLinesAreExclusive :
    (decAt doneDec).dec.st = .done ∧ (1 : BitVec 16).toNat < (decAt doneDec).dec.len.toNat ∧
    (portsOut (decAt doneDec) 1 0).decRdData = some 0x35 ∧ (encAt doneEnc).enc.st = .done ∧
    (3 : BitVec 17).toNat < (encAt doneEnc).enc.tot.toNat ∧ (portsOut (encAt doneEnc) 0 3).encRdData = some 0x69 ∧
    (portsOut (decAt errDec) 0 0).decErrCode = 1 := by decide

end Sys2Proof.Tests
end

section
/-! PROOFS. The bit and byte utilities (40_bit_byte_utilities, R140 to R149): what each function row shows, the bit-field reading
of each function, and the obligations about them. -/

namespace Sys2Proof.Machine

/-! The function rows: each shows the value of its function and changes nothing else. -/

@[simp] theorem exec_maskbit (b : Byte) (s : State) :
    exec (.maskbit b) s = .next (s.withResult (.flag (maskbit b))) := rfl
@[simp] theorem exec_mark7 (b : Byte) (s : State) :
    exec (.mark7 b) s = .next (s.withResult (.marker (mark7 b))) := rfl
@[simp] theorem exec_be16 (hi lo : Byte) (s : State) :
    exec (.be16 hi lo) s = .next (s.withResult (.half (be16 hi lo))) := rfl
@[simp] theorem exec_hi8 (n : Nat) (s : State) : exec (.hi8 n) s = .next (s.withResult (.byte (hi8 n))) := rfl
@[simp] theorem exec_lo8 (n : Nat) (s : State) : exec (.lo8 n) s = .next (s.withResult (.byte (lo8 n))) := rfl
@[simp] theorem exec_unmask1 (m : Byte) (key : Key) (i : Nat) (s : State) :
    exec (.unmask1 m key i) s = .next (s.withResult (.byte (unmask1 m key i))) := rfl
@[simp] theorem exec_unmask (key : Key) (q : List Byte) (s : State) :
    exec (.unmask key q) s = .next (s.withResult (.bytes (unmask key q))) := rfl
@[simp] theorem exec_isInline (m : BitVec 7) (s : State) :
    exec (.isInline m) s = .next (s.withResult (.flag (isInline m))) := rfl
@[simp] theorem exec_isExt16 (m : BitVec 7) (s : State) :
    exec (.isExt16 m) s = .next (s.withResult (.flag (isExt16 m))) := rfl
@[simp] theorem exec_isExt64 (m : BitVec 7) (s : State) :
    exec (.isExt64 m) s = .next (s.withResult (.flag (isExt64 m))) := rfl
@[simp] theorem exec_fitsShort (n : Nat) (s : State) :
    exec (.fitsShort n) s = .next (s.withResult (.flag (fitsShort n))) := rfl
@[simp] theorem exec_fitsExt16 (n : Nat) (s : State) :
    exec (.fitsExt16 n) s = .next (s.withResult (.flag (fitsExt16 s.par.encMax n))) := rfl
@[simp] theorem exec_tooLarge (n : Nat) (s : State) :
    exec (.tooLarge n) s = .next (s.withResult (.flag (tooLarge s.par.encMax n))) := rfl

/-! The bit-field reading of the arithmetic (R141 to R145). -/

theorem getLsbD_seven_iff (b : Byte) : b.getLsbD 7 = true ↔ 128 ≤ b.toNat := by
  rw [← BitVec.msb_eq_getLsbD_last b, BitVec.msb_eq_decide, decide_eq_true_iff]

theorem maskbit_eq_getLsbD (b : Byte) : maskbit b = b.getLsbD 7 :=
  Bool.eq_iff_iff.mpr ((maskbit_iff b).trans (getLsbD_seven_iff b).symm)

/-- A bit-field read as arithmetic: a shift is a division, a truncation a remainder (R140). -/
theorem toNat_extractLsb' {w : Nat} (x : BitVec w) (start len : Nat) :
    (x.extractLsb' start len).toNat = x.toNat / 2 ^ start % 2 ^ len := by
  rw [BitVec.extractLsb'_toNat, Nat.shiftRight_eq_div_pow]

theorem mark7_eq_extractLsb' {b : Byte} (h : 128 ≤ b.toNat) : mark7 b = b.extractLsb' 0 7 := by
  apply BitVec.eq_of_toNat_eq
  rw [mark7_toNat h, toNat_extractLsb']
  omega

theorem be16_extractLsb'_high (hi lo : Byte) : (be16 hi lo).extractLsb' 8 8 = hi := by
  apply BitVec.eq_of_toNat_eq
  rw [toNat_extractLsb', be16_toNat]
  omega

theorem be16_extractLsb'_low (hi lo : Byte) : (be16 hi lo).extractLsb' 0 8 = lo := by
  apply BitVec.eq_of_toNat_eq
  rw [toNat_extractLsb', be16_toNat]
  omega

theorem hi8_eq_extractLsb' (n : Nat) : hi8 n = (BitVec.ofNat 32 n).extractLsb' 8 8 := by
  apply BitVec.eq_of_toNat_eq
  rw [hi8_toNat, toNat_extractLsb', BitVec.toNat_ofNat]
  omega

theorem lo8_eq_extractLsb' (n : Nat) : lo8 n = (BitVec.ofNat 32 n).extractLsb' 0 8 := by
  apply BitVec.eq_of_toNat_eq
  rw [lo8_toNat, toNat_extractLsb', BitVec.toNat_ofNat]
  omega

/-- Settles O7: the arithmetic and the bit-field form of each result. -/
theorem byteUtilities : Obligations.ByteUtilities := by
  intro s b hi lo n
  refine ⟨?_, getLsbD_seven_iff b,
    ⟨be16 hi lo, exec_be16 hi lo s, be16_toNat hi lo, be16_extractLsb'_high hi lo, be16_extractLsb'_low hi lo⟩,
    ⟨hi8 n, exec_hi8 n s, hi8_toNat n, hi8_eq_extractLsb' n⟩, ⟨lo8 n, exec_lo8 n s, lo8_toNat n, lo8_eq_extractLsb' n⟩⟩
  rw [← maskbit_eq_getLsbD]
  exact exec_maskbit b s

/-- Settles O8: with the mask bit set, subtracting 128 leaves the low seven bits. -/
theorem markerExtraction : Obligations.MarkerExtraction :=
  fun s b h => ⟨mark7 b, exec_mark7 b s, mark7_toNat h, mark7_eq_extractLsb' h⟩

/-! Masking (R146, R147). -/

/-- The key as a list of four bytes, read at the index mod 4. -/
theorem key_getElem?_mod_four (key : Key) (i : Nat) :
    [key.k0, key.k1, key.k2, key.k3][i % 4]? = some (keyByte key i) := by
  have hi : i % 4 = 0 ∨ i % 4 = 1 ∨ i % 4 = 2 ∨ i % 4 = 3 := by omega
  rcases hi with h | h | h | h <;> simp [keyByte, h]

/-- Byte `j` of a sequence that starts at payload index `i` is unmasked with the key byte at `i + j`. -/
theorem unmaskFrom_getElem? (key : Key) (i : Nat) (q : List Byte) (j : Nat) :
    (unmaskFrom key i q)[j]? = q[j]?.map fun m => unmask1 m key (i + j) := by
  induction q generalizing i j with
  | nil => rfl
  | cons m q ih =>
    cases j with
    | zero => rfl
    | succ j => simp [unmaskFrom, ih, Nat.add_assoc, Nat.add_comm 1]

theorem unmask_length (key : Key) (q : List Byte) : (unmask key q).length = q.length := unmaskFrom_length key 0 q

theorem unmask_getElem? (key : Key) (q : List Byte) (j : Nat) :
    (unmask key q)[j]? = q[j]?.map fun m => unmask1 m key j := by
  simp [unmask, unmaskFrom_getElem?]

/-- Settles O9: each byte is XORed with the key byte at its index mod 4. -/
theorem unmaskingIsXorWithTheRepeatedKey : Obligations.UnmaskingIsXorWithTheRepeatedKey := by
  intro s key m q i
  refine ⟨⟨unmask1 m key i, exec_unmask1 m key i s, ?_⟩, ⟨unmask key q, exec_unmask key q s, unmask_length key q, ?_⟩⟩
  · simp [key_getElem?_mod_four, unmask1]
  · intro j hj
    simp [key_getElem?_mod_four, unmask_getElem?, unmask1, hj]

@[simp] theorem unmask1_unmask1 (m : Byte) (key : Key) (i : Nat) : unmask1 (unmask1 m key i) key i = m :=
  xor_cancel_right m (keyByte key i)

@[simp] theorem unmaskFrom_unmaskFrom (key : Key) (i : Nat) (q : List Byte) : unmaskFrom key i (unmaskFrom key i q) = q := by
  induction q generalizing i with
  | nil => rfl
  | cons m q ih => simp [unmaskFrom, ih]

@[simp] theorem unmask_unmask (key : Key) (q : List Byte) : unmask key (unmask key q) = q := unmaskFrom_unmaskFrom key 0 q

/-- Settles O10: masking and unmasking are one function, and it is its own inverse byte by byte. -/
theorem maskingAndUnmaskingAreInverse : Obligations.MaskingAndUnmaskingAreInverse :=
  ⟨fun a k => ⟨xor_cancel_right a k, BitVec.xor_zero, BitVec.xor_self, BitVec.xor_comm a k⟩, BitVec.xor_assoc,
    unmask_unmask, unmask_unmask⟩

/-! Length classes (R148, R149). -/

theorem markerClass_exactlyOne (m : BitVec 7) :
    (isInline m = true ∧ isExt16 m = false ∧ isExt64 m = false) ∨
    (isInline m = false ∧ isExt16 m = true ∧ isExt64 m = false) ∨
    (isInline m = false ∧ isExt16 m = false ∧ isExt64 m = true) := by
  have hm : m.toNat < 128 := m.isLt
  simp only [← Bool.not_eq_true, isInline_iff, isExt16_iff, isExt64_iff]
  omega

/-- Exactly one, because `ENC_MAX_N` is at least 65535, above 125 (R6). -/
theorem lengthClass_exactlyOne (max : Config.EncMax) (n : Nat) :
    (fitsShort n = true ∧ fitsExt16 max n = false ∧ tooLarge max n = false) ∨
    (fitsShort n = false ∧ fitsExt16 max n = true ∧ tooLarge max n = false) ∨
    (fitsShort n = false ∧ fitsExt16 max n = false ∧ tooLarge max n = true) := by
  obtain ⟨hmax, -⟩ := encMax_bounds max
  simp only [← Bool.not_eq_true, fitsShort_iff, fitsExt16_iff, tooLarge_iff]
  omega

/-- Settles O11: 0 to 125, 126 and 127 are all the markers of 7 bits. -/
theorem markerClasses : Obligations.MarkerClasses :=
  fun s m => ⟨isInline m, isExt16 m, isExt64 m, exec_isInline m s, isInline_iff m, exec_isExt16 m s, isExt16_iff m,
    exec_isExt64 m s, isExt64_iff m, markerClass_exactlyOne m⟩

/-- Settles O12: the bounds 125 and `ENC_MAX_N` cut the numbers into three classes. -/
theorem outboundLengthClasses : Obligations.OutboundLengthClasses :=
  fun s n => ⟨fitsShort n, fitsExt16 s.par.encMax n, tooLarge s.par.encMax n, exec_fitsShort n s, fitsShort_iff n,
    exec_fitsExt16 n s, fitsExt16_iff s.par.encMax n, exec_tooLarge n s, tooLarge_iff s.par.encMax n,
    lengthClass_exactlyOne s.par.encMax n⟩

end Sys2Proof.Machine
end

section
/-! PROOFS. The frame decoder (41_frame_decoder, R160 to R174): what each decoder row and each decoder event does, what the shared
transitions write and keep, and the obligations about them. -/

namespace Sys2Proof.Machine

/-! The decoder rows, and the wire forms of a client frame: each is a transition of the unit under the row's condition. -/

@[simp] theorem exec_decInvoke (s : State) : exec .decInvoke s = decRow s.dec.st.accepts s.dec.start s := rfl
@[simp] theorem exec_decB0 (b : Byte) (s : State) :
    exec (.decB0 b) s = decRow (decide (s.dec.st = .b0)) s.dec.takeByte0 s := rfl
@[simp] theorem exec_cfB0Any (b : Byte) (s : State) :
    exec (.cfB0Any b) s = decRow (decide (s.dec.st = .b0)) s.dec.takeByte0 s := rfl
@[simp] theorem exec_decB1Unmasked (b : Byte) (s : State) :
    exec (.decB1Unmasked b) s = decRow (decide (s.dec.st = .b1) && !maskbit b) s.dec.takeUnmasked s := rfl
@[simp] theorem exec_cfB1Unmasked (m : BitVec 7) (s : State) :
    exec (.cfB1Unmasked m) s = decRow (decide (s.dec.st = .b1)) s.dec.takeUnmasked s := rfl
@[simp] theorem exec_decB1 (b : Byte) (s : State) :
    exec (.decB1 b) s = decRow (decide (s.dec.st = .b1) && maskbit b) (s.dec.takeByte1 b) s := rfl
@[simp] theorem exec_decB1Short (b : Byte) (s : State) :
    exec (.decB1Short b) s =
      decRow (decide (s.dec.st = .b1) && maskbit b && isInline (mark7 b)) (s.dec.takeShort (mark7 b)) s := rfl
@[simp] theorem exec_cfB1Short (m : BitVec 7) (s : State) :
    exec (.cfB1Short m) s = decRow (decide (s.dec.st = .b1) && isInline m) (s.dec.takeShort m) s := rfl
@[simp] theorem exec_decB1Ext16 (s : State) :
    exec .decB1Ext16 s = decRow (decide (s.dec.st = .b1)) s.dec.takeExt16 s := rfl
@[simp] theorem exec_cfB1Ext16 (s : State) :
    exec .cfB1Ext16 s = decRow (decide (s.dec.st = .b1)) s.dec.takeExt16 s := rfl
@[simp] theorem exec_decB1Ext64 (s : State) :
    exec .decB1Ext64 s = decRow (decide (s.dec.st = .b1)) s.dec.takeExt64 s := rfl
@[simp] theorem exec_cfB1Ext64 (s : State) :
    exec .cfB1Ext64 s = decRow (decide (s.dec.st = .b1)) s.dec.takeExt64 s := rfl
@[simp] theorem exec_decXh (b : Byte) (s : State) :
    exec (.decXh b) s = decRow (decide (s.dec.st = .xh)) (s.dec.takeLenHi b) s := rfl
@[simp] theorem exec_decXl (b : Byte) (s : State) :
    exec (.decXl b) s = decRow (decide (s.dec.st = .xl)) (s.dec.takeLenLo b) s := rfl
@[simp] theorem exec_decKey (b : Byte) (s : State) :
    exec (.decKey b) s = decRow (decide (s.dec.st = .key)) (s.dec.takeKey b) s := rfl
@[simp] theorem exec_decRxFail (s : State) :
    exec .decRxFail s = decRow s.dec.st.awaiting (s.dec.raise .transportFailure) s := rfl
@[simp] theorem exec_decCheck (s : State) :
    exec .decCheck s = decRow (decide (s.dec.st = .chk)) (s.dec.check s.par.text) s := rfl
@[simp] theorem exec_decIgnore (e : DecEvent) (s : State) : exec (.decIgnore e) s = .next s := rfl
@[simp] theorem exec_decRead (i : BitVec 16) (s : State) :
    exec (.decRead i) s = .next (s.withDec (s.dec.readByte i.toNat)) := rfl

/-- DEC.PAY where `DEC_IDX` is an index of `DEC_BUF` (R72, R170). -/
theorem exec_decPay {s : State} (b : Byte) (h : s.dec.idx.toNat < Config.decCap) :
    exec (.decPay b) s = decRow (decide (s.dec.st = .pay)) (s.dec.takePayload b) s :=
  if_neg fun hc => absurd hc.2 (Nat.not_le.mpr h)

theorem onlyDec_withDec (s : State) (d : Dec) : OnlyDec s (s.withDec d) := ⟨rfl, rfl, rfl, rfl⟩

/-! Which row an event selects (R178). -/

@[simp] theorem deliver_dec (e : DecEvent) (s : State) : deliver (.dec e) s = exec (selectDec s.dec.st e) s := rfl

@[simp] theorem select_dec (e : DecEvent) (s : State) : select s (.dec e) = selectDec s.dec.st e := rfl

theorem DecSt.accepts_iff (st : DecSt) : st.accepts = true ↔ st = .idle ∨ st = .done := by cases st <;> decide

theorem DecSt.awaiting_iff (st : DecSt) : st.awaiting = true ↔ st ∈ [DecSt.b0, .b1, .xh, .xl, .key, .pay] := by
  cases st <;> decide

theorem DecSt.not_awaiting_iff (st : DecSt) : st.awaiting = false ↔ st ∈ [DecSt.idle, .chk, .done, .err] := by
  cases st <;> decide

theorem selectRxByte_of_not_awaiting {st : DecSt} (b : Byte) (h : st.awaiting = false) :
    selectRxByte st b = .decIgnore (.rxByte b) := by
  simp only [DecSt.not_awaiting_iff, List.mem_cons, List.not_mem_nil, or_false] at h
  rcases h with rfl | rfl | rfl | rfl <;> rfl

theorem deliver_rxByte_b0 {s : State} (b : Byte) (h : s.dec.st = .b0) :
    deliver (.dec (.rxByte b)) s = exec (.decB0 b) s := by
  simp only [deliver_dec, selectDec, h, selectRxByte]

theorem deliver_rxByte_b1 {s : State} (b : Byte) (h : s.dec.st = .b1) :
    deliver (.dec (.rxByte b)) s = exec (selectByte1 b) s := by
  simp only [deliver_dec, selectDec, h, selectRxByte]

/-! Header byte 1 (R162 to R166). -/

theorem selectByte1_unmasked {b : Byte} (h : b.toNat < 128) : selectByte1 b = .decB1Unmasked b :=
  if_neg fun hm => absurd ((maskbit_iff b).mp hm) (Nat.not_le.mpr h)

theorem selectByte1_short {b : Byte} (h : 128 ≤ b.toNat) (hm : b.toNat - 128 ≤ 125) : selectByte1 b = .decB1Short b := by
  have hi : isInline (mark7 b) = true := by rwa [isInline_iff, mark7_toNat h]
  simp [selectByte1, (maskbit_iff b).mpr h, hi]

theorem selectByte1_ext16 {b : Byte} (h : 128 ≤ b.toNat) (hm : b.toNat - 128 = 126) : selectByte1 b = .decB1Ext16 := by
  have hx : isExt16 (mark7 b) = true := by rwa [isExt16_iff, mark7_toNat h]
  have hi : isInline (mark7 b) = false := by rw [← Bool.not_eq_true, isInline_iff, mark7_toNat h]; omega
  simp [selectByte1, (maskbit_iff b).mpr h, hi, hx]

theorem selectByte1_ext64 {b : Byte} (h : 128 ≤ b.toNat) (hm : b.toNat - 128 = 127) : selectByte1 b = .decB1Ext64 := by
  have hx : isExt16 (mark7 b) = false := by rw [← Bool.not_eq_true, isExt16_iff, mark7_toNat h]; omega
  have hi : isInline (mark7 b) = false := by rw [← Bool.not_eq_true, isInline_iff, mark7_toNat h]; omega
  simp [selectByte1, (maskbit_iff b).mpr h, hi, hx]

/-- The row of the byte's length class is DEC.B1 itself: the marker and the class are taken in one step (R163). -/
theorem exec_selectByte1 {b : Byte} (s : State) (h : 128 ≤ b.toNat) : exec (selectByte1 b) s = exec (.decB1 b) s := by
  have hmask := (maskbit_iff b).mpr h
  unfold selectByte1
  obtain ⟨hi, hd⟩ | ⟨hi, hx, hd⟩ | ⟨hi, hx, hd⟩ := s.dec.takeByte1_cases b <;> simp [*]

/-- Markers 126 and 127 are written as constants, and they are the byte's (R165, R166). -/
theorem Dec.takeByte1_mark {b : Byte} (d : Dec) (h : 128 ≤ b.toNat) : (d.takeByte1 b).mark = mark7 b := by
  have hm := mark7_toNat h
  have hb : b.toNat < 256 := b.isLt
  obtain ⟨-, hd⟩ | ⟨-, hx, hd⟩ | ⟨hi, hx, hd⟩ := d.takeByte1_cases b
  · rw [hd, Dec.takeShort_mark]
  · rw [isExt16_iff] at hx
    rw [hd, Dec.takeExt16_mark]
    exact BitVec.eq_of_toNat_eq hx.symm
  · rw [← Bool.not_eq_true, isInline_iff] at hi
    rw [← Bool.not_eq_true, isExt16_iff] at hx
    rw [hd, Dec.takeExt64_mark]
    exact BitVec.eq_of_toNat_eq (show 127 = (mark7 b).toNat by omega)

theorem mark7_eq_ofNat {b : Byte} (h : 128 ≤ b.toNat) : mark7 b = BitVec.ofNat 7 (b.toNat - 128) := by
  rw [← mark7_toNat h, BitVec.ofNat_toNat, BitVec.setWidth_eq]

theorem mark7_eq_setWidth {b : Byte} (h : 128 ≤ b.toNat) : mark7 b = b.setWidth 7 := by
  apply BitVec.eq_of_toNat_eq
  rw [mark7_toNat h, BitVec.toNat_setWidth]
  omega

@[simp] theorem Dec.takeShort_len (d : Dec) (m : BitVec 7) : (d.takeShort m).len.toNat = m.toNat := by
  simp only [Dec.len, be16_toNat, Dec.takeShort_lenHi, Dec.takeShort_lenLo]
  bv_omega

/-- Settles O20: the row of the class the byte selects runs DEC.B1. -/
theorem headerByteOneLatchesTheMarker : Obligations.HeaderByteOneLatchesTheMarker := by
  intro s b hst hb
  have hrow : exec (.decB1 b) s = .next (s.withDec (s.dec.takeByte1 b)) := by simp [hst, (maskbit_iff b).mpr hb]
  have hsel : exec (selectByte1 b) s = .next (s.withDec (s.dec.takeByte1 b)) := (exec_selectByte1 s hb).trans hrow
  refine ⟨_, hrow, ?_, fun hm => ?_, fun hm => ?_, fun hm => ?_, ?_⟩
  · rw [withDec_dec, Dec.takeByte1_mark _ hb, mark7_toNat hb]
  · rwa [selectByte1_short hb hm] at hsel
  · exact selectByte1_ext16 hb hm ▸ hsel
  · exact selectByte1_ext64 hb hm ▸ hsel
  · rwa [deliver_rxByte_b1 b hst]

/-- Settles O21: the step row and the wire form take the same marker, which is both `DEC_MARK` and `DEC_LEN`. -/
theorem inlineMarkerIsTheLength : Obligations.InlineMarkerIsTheLength := by
  intro s b hst hb hmax
  have hi : isInline (mark7 b) = true := by rw [isInline_iff, mark7_toNat hb]; omega
  refine ⟨s.withDec (s.dec.takeShort (mark7 b)), by simp [hst, (maskbit_iff b).mpr hb, hi], ?_, ?_, ?_⟩
  · rw [← mark7_eq_setWidth hb]
    simp [hst, hi]
  · have hlo : (mark7 b).setWidth 8 = BitVec.ofNat 8 (b.toNat - 128) := by
      rw [← mark7_toNat hb, BitVec.ofNat_toNat]
    rw [← hlo, ← mark7_eq_ofNat hb]
    rfl
  · rw [withDec_dec, Dec.takeShort_len, mark7_toNat hb]

/-- Settles O19: byte 1 without the mask bit, as the row, the wire form and the event. -/
theorem unmaskedFrameIsRaised : Obligations.UnmaskedFrameIsRaised := by
  intro s b hst hb
  have hm : maskbit b = false := by rw [← Bool.not_eq_true, maskbit_iff]; omega
  have hrow : exec (.decB1Unmasked b) s = .next (s.withDec s.dec.takeUnmasked) := by simp [hst, hm]
  refine ⟨hrow, ?_, ?_⟩
  · rw [exec_cfB1Unmasked, hst]
    rfl
  · rwa [deliver_rxByte_b1 b hst, selectByte1_unmasked hb]

/-- Settles O22: marker 126. -/
theorem markerOneTwentySixAwaitsTwoLengthBytes : Obligations.MarkerOneTwentySixAwaitsTwoLengthBytes := by
  intro s hst
  rw [exec_decB1Ext16, exec_cfB1Ext16, hst]
  exact ⟨rfl, rfl⟩

/-- Settles O23: marker 127. -/
theorem markerOneTwentySevenIsRefused : Obligations.MarkerOneTwentySevenIsRefused := by
  intro s hst
  rw [exec_decB1Ext64, exec_cfB1Ext64, hst]
  exact ⟨rfl, rfl⟩

/-! Invocation and header byte 0 (R160, R161). -/

/-- Settles O17: the row fires exactly in the two accepting states. -/
theorem invokeStartsAFrame : Obligations.InvokeStartsAFrame := by
  intro s
  refine ⟨fun hst => ?_, fun hidle hdone => ?_⟩
  · have ha : s.dec.st.accepts = true := (DecSt.accepts_iff _).mpr hst
    exact ⟨s.withDec s.dec.start, by simp [ha], rfl, Memory.read_nil, rfl, rfl, rfl, rfl, onlyDec_withDec _ _⟩
  · have ha : s.dec.st.accepts = false := by simp [← Bool.not_eq_true, DecSt.accepts_iff, hidle, hdone]
    rw [exec_decInvoke, ha, decRow_false]

/-- Settles O18: no result mentions the byte. -/
theorem headerByteZeroIsDropped : Obligations.HeaderByteZeroIsDropped := by
  intro s b hst
  have hrow : exec (.decB0 b) s = .next (s.withDec s.dec.takeByte0) := by simp [hst]
  refine ⟨hrow, ?_, ?_⟩
  · rw [exec_cfB0Any, hst]
    rfl
  · rwa [deliver_rxByte_b0 b hst]

/-! The extended length (R167, R168). -/

/-- Settles O24: the two halves of `DEC_LEN` are written apart. -/
theorem highLengthByte : Obligations.HighLengthByte := by
  intro s b hst
  refine ⟨s.withDec (s.dec.takeLenHi b), by simp [hst], be16_extractLsb'_high _ _, ?_, rfl, rfl⟩
  exact (be16_extractLsb'_low _ _).trans (be16_extractLsb'_low _ _).symm

/-- Settles O25: the high byte latched before and `b` are the big-endian length. -/
theorem lowLengthByteCompletesTheLength : Obligations.LowLengthByteCompletesTheLength := by
  intro s b hst
  refine ⟨s.withDec (s.dec.takeLenLo b), by simp [hst], ?_, rfl, rfl, rfl⟩
  rw [show s.dec.len.extractLsb' 8 8 = s.dec.lenHi from be16_extractLsb'_high _ _]
  exact be16_toNat _ _

/-! The masking key (R169). -/

theorem keyBytes_setKeyByte (key : Key) {j : Nat} (b : Byte) (h : j < 4) :
    keyBytes (setKeyByte key j b) = (keyBytes key).set j b := by
  have hj : j = 0 ∨ j = 1 ∨ j = 2 ∨ j = 3 := by omega
  rcases hj with rfl | rfl | rfl | rfl <;> rfl

/-- The key after a key byte, and the registers that no key byte writes. -/
theorem Dec.takeKey_key_frame (b : Byte) (d : Dec) :
    (d.takeKey b).key = setKeyByte d.key d.kidx.toNat b ∧ (d.takeKey b).mark = d.mark ∧ (d.takeKey b).len = d.len ∧
      (d.takeKey b).err = d.err ∧ (d.takeKey b).buf = d.buf := by
  obtain ⟨-, hd⟩ | ⟨-, -, hd⟩ | ⟨-, -, hd⟩ := d.takeKey_cases b
  all_goals
    rw [hd]
    exact ⟨rfl, rfl, rfl, rfl, rfl⟩

/-- Settles O26: the first three bytes advance `DEC_KIDX`, the fourth leaves `D_KEY`. -/
theorem keyBytesAreLatchedInOrder : Obligations.KeyBytesAreLatchedInOrder := by
  intro s b hst
  obtain ⟨hkey, hmark, hlen, herr, hbuf⟩ := s.dec.takeKey_key_frame b
  have hk : s.dec.kidx.toNat < 4 := s.dec.kidx.isLt
  have hlen0 : s.dec.len = 0 ↔ s.dec.len.toNat = 0 := BitVec.toNat_inj.symm
  refine ⟨s.withDec (s.dec.takeKey b), by simp [hst], ?_, fun h => ?_, fun h => ?_, hmark, hlen, herr, hbuf,
    onlyDec_withDec _ _⟩
  · rw [withDec_dec, hkey, keyBytes_setKeyByte _ _ hk]
  all_goals rw [withDec_dec]
  · obtain ⟨-, hd⟩ | ⟨h3, -⟩ | ⟨h3, -⟩ := s.dec.takeKey_cases b
    · rw [hd]
      refine ⟨?_, hst, rfl⟩
      show (s.dec.kidx + 1).toNat = _
      bv_omega
    all_goals omega
  · obtain ⟨h3, -⟩ | ⟨-, hl, hd⟩ | ⟨-, hl, hd⟩ := s.dec.takeKey_cases b
    · omega
    · rw [hd]
      exact ⟨rfl, (if_pos (hlen0.mp hl)).symm⟩
    · rw [hd]
      exact ⟨rfl, (if_neg (hl ∘ hlen0.mpr)).symm⟩

/-! The payload (R170). -/

/-- The buffer and the index after a payload byte, and the registers that no payload byte writes. -/
theorem Dec.takePayload_buf_frame (b : Byte) (d : Dec) :
    (d.takePayload b).buf = Memory.write d.buf d.idx.toNat (unmask1 b d.key d.idx.toNat) ∧
      (d.takePayload b).idx = d.idx + 1 ∧ (d.takePayload b).mark = d.mark ∧ (d.takePayload b).len = d.len ∧
      (d.takePayload b).kidx = d.kidx ∧ (d.takePayload b).err = d.err := by
  obtain ⟨-, hd⟩ | ⟨-, hd⟩ := d.takePayload_cases b
  all_goals
    rw [hd]
    exact ⟨rfl, rfl, rfl, rfl, rfl, rfl⟩

/-- Below `DEC_LEN` the index does not wrap. -/
theorem Dec.idx_succ_toNat {d : Dec} (h : d.idx.toNat < d.len.toNat) : (d.idx + 1).toNat = d.idx.toNat + 1 := by
  have hlen : d.len.toNat < 65536 := d.len.isLt
  bv_omega

/-- Settles O27: the write is at `DEC_IDX`, which below `DEC_LEN` is an index of `DEC_BUF`. -/
theorem payloadByteIsUnmaskedAndStored : Obligations.PayloadByteIsUnmaskedAndStored := by
  intro s b hst hidx
  have hlen : s.dec.len.toNat < 65536 := s.dec.len.isLt
  have hsucc := Dec.idx_succ_toNat hidx
  have hlast : s.dec.idx + 1 = s.dec.len ↔ s.dec.idx.toNat + 1 = s.dec.len.toNat := by rw [← BitVec.toNat_inj, hsucc]
  obtain ⟨hbuf, hi, hmark, hl, hkidx, herr⟩ := s.dec.takePayload_buf_frame b
  have hcap : s.dec.idx.toNat < Config.decCap := by show s.dec.idx.toNat < 65535; omega
  refine ⟨s.withDec (s.dec.takePayload b), by simp [exec_decPay b hcap, hst], ?_, fun a ha => ?_, ?_, fun h => ?_, fun h => ?_,
    hmark, hl, hkidx, herr, onlyDec_withDec _ _⟩
  all_goals rw [withDec_dec]
  · rw [hbuf, Memory.read_write_same, keyBytes, key_getElem?_mod_four]
    rfl
  · rw [hbuf, Memory.read_write_other _ _ ha]
  · rw [hi, hsucc]
  · obtain ⟨-, hd⟩ | ⟨hne, -⟩ := s.dec.takePayload_cases b
    · rw [hd]
      rfl
    · exact absurd (hlast.mpr h) hne
  · obtain ⟨heq, -⟩ | ⟨-, hd⟩ := s.dec.takePayload_cases b
    · exact absurd (hlast.mp heq) h.ne
    · rw [hd]
      exact ⟨hst, rfl⟩

/-! Transport failure and ignored events (R171, R173). -/

/-- Settles O28: a failure acts exactly where a byte is awaited. -/
theorem transportFailureStrikesAPendingRead : Obligations.TransportFailureStrikesAPendingRead := by
  intro s
  refine ⟨fun hst => ?_, fun hst => ?_⟩
  · have ha := (DecSt.awaiting_iff _).mpr hst
    have hrow : exec .decRxFail s = .next (s.withDec (s.dec.raise .transportFailure)) := by simp [ha]
    exact ⟨hrow, by rwa [deliver_dec, selectDec, if_pos ha]⟩
  · have ha := (DecSt.not_awaiting_iff _).mpr hst
    simp [selectDec, ha]

/-- Settles O30: each listed pair selects DEC.IGNORE. -/
theorem unawaitedDecoderEventsAreIgnored : Obligations.UnawaitedDecoderEventsAreIgnored := by
  intro s e h
  suffices hsel : selectDec s.dec.st e = .decIgnore e from ⟨hsel, rfl, by rw [deliver_dec, hsel, exec_decIgnore]⟩
  rcases h with ⟨rfl, hst⟩ | ⟨⟨b, rfl⟩, hst⟩ | ⟨rfl, hst⟩ | ⟨rfl, hst⟩
  · have ha : ¬s.dec.st.accepts = true := by
      rw [DecSt.accepts_iff]
      rintro (h | h) <;> simp [h] at hst
    exact if_neg ha
  · exact selectRxByte_of_not_awaiting b ((DecSt.not_awaiting_iff _).mpr hst)
  · exact if_neg (by simp [(DecSt.not_awaiting_iff _).mpr hst])
  · exact if_neg hst

/-! The text check and the result (R172, R174). -/

@[simp] theorem Dec.payload_length (d : Dec) : d.payload.length = d.len.toNat := by simp [Dec.payload]

theorem Dec.payload_getElem (d : Dec) {i : Nat} (h : i < d.payload.length) :
    d.payload[i] = (Memory.read d.buf i).getD (Config.decUnwritten i) := by simp [Dec.payload]

/-- Where every index below `DEC_LEN` is written, the payload is what stands there. -/
theorem Dec.payload_eq {d : Dec} {p : List Byte} (hlen : p.length = d.len.toNat)
    (hread : ∀ i (h : i < p.length), Memory.read d.buf i = some p[i]) : d.payload = p := by
  refine List.ext_getElem (by rw [Dec.payload_length, hlen]) fun i _ hi => ?_
  rw [Dec.payload_getElem, hread i hi, Option.getD_some]

/-- Settles O29: the row checks the payload, which the premise says is `p`. -/
theorem textCheckDecidesTheFrame : Obligations.TextCheckDecidesTheFrame := by
  intro s p hst hlen hread
  have hrow : exec .decCheck s = .next (s.withDec (s.dec.check s.par.text)) := by simp [hst]
  obtain ⟨hv, hd⟩ | ⟨hv, hd⟩ := s.dec.check_cases s.par.text
  all_goals
    rw [Dec.payload_eq hlen hread] at hv
    rw [hd] at hrow
  · exact ⟨_, hrow, rfl, fun _ => ⟨rfl, rfl⟩, fun h => by simp [hv] at h⟩
  · exact ⟨_, hrow, rfl, fun h => by simp [hv] at h, fun _ => ⟨rfl, rfl⟩⟩

theorem Memory.exists_read_of_mem {m : Memory} {a : Nat} (h : a ∈ m.map Prod.fst) : ∃ b, Memory.read m a = some b := by
  induction m with
  | nil => simp at h
  | cons c rest ih =>
    obtain ⟨x, b⟩ := c
    by_cases hx : x = a
    · exact ⟨b, by simp [Memory.read, hx]⟩
    · have hrest : a ∈ rest.map Prod.fst := by simpa [Ne.symm hx] using h
      simpa [Memory.read, hx] using ih hrest

/-- After the payload every index below `DEC_LEN` is written (R170, R172). -/
theorem Dec.Inv.read_payload {rule : Config.TextRule} {d : Dec} (h : d.Inv rule) (hst : d.st = .chk ∨ d.st = .done)
    {i : Nat} (hi : i < d.payload.length) : Memory.read d.buf i = some d.payload[i] := by
  have hmem : i ∈ d.buf.map Prod.fst := by
    rw [h.filled (.inr hst), List.mem_range, h.full hst, ← Dec.payload_length]
    exact hi
  obtain ⟨b, hb⟩ := Memory.exists_read_of_mem hmem
  rw [Dec.payload_getElem, hb, Option.getD_some]

/-- Settles O31: the window shows `DEC_BUF`, and under the invariant the whole of it passed the check. -/
theorem readReturnsTheDecodedByte : Obligations.ReadReturnsTheDecodedByte := by
  intro s i
  refine ⟨fun b hst hi hb => ?_, ?_, fun hinv hst => ?_⟩
  · have hw : s.dec.inWindow i.toNat = true := by simp [Dec.inWindow, hst, hi]
    rw [exec_decRead, Dec.readByte, if_pos hw, hb]
    rfl
  · obtain ⟨-, hd⟩ | ⟨-, hd⟩ := s.dec.readByte_cases i.toNat
    all_goals
      rw [exec_decRead, hd]
      exact ⟨_, _, rfl, rfl, ⟨rfl, rfl, rfl, rfl, rfl, rfl, rfl, rfl, rfl⟩, onlyDec_withDec _ _⟩
  · exact ⟨s.dec.payload, s.dec.payload_length, hinv.dec.text hst, fun j hj => hinv.dec.read_payload (.inr hst) hj⟩

end Sys2Proof.Machine
end

section
/-! PROOFS. The frame encoder (42_frame_encoder, R190 to R196): what each encoder row and each encoder event does, the header each
length class writes, what a payload byte writes and keeps, and the obligations about them. -/

namespace Sys2Proof.Machine

/-! The encoder rows, and the wire forms of a server frame: each is a transition of the unit under the row's condition. -/

@[simp] theorem exec_encInvoke (n : Nat) (s : State) :
    exec (.encInvoke n) s = encRow s.enc.st.accepts (s.enc.invoke s.par.encMax n) s := rfl
@[simp] theorem exec_encShort (n : Nat) (s : State) :
    exec (.encShort n) s = encRow (s.enc.st.accepts && fitsShort n) (s.enc.startShort n) s := rfl
@[simp] theorem exec_encExt16 (n : Nat) (s : State) :
    exec (.encExt16 n) s = encRow (s.enc.st.accepts && fitsExt16 s.par.encMax n) (s.enc.startExt16 n) s := rfl
@[simp] theorem exec_encTooLarge (n : Nat) (s : State) :
    exec (.encTooLarge n) s = encRow (s.enc.st.accepts && tooLarge s.par.encMax n) s.enc.refuse s := rfl
@[simp] theorem exec_encIgnore (e : EncEvent) (s : State) : exec (.encIgnore e) s = .next s := rfl
@[simp] theorem exec_encRead (i : BitVec 17) (s : State) :
    exec (.encRead i) s = .next (s.withEnc (s.enc.readByte i.toNat)) := rfl

/-- SF.SHORT is ENC.SHORT of the length its 7 bits stand for (R122). -/
theorem exec_sfShort (n : BitVec 7) (s : State) : exec (.sfShort n) s = exec (.encShort n.toNat) s := rfl
theorem exec_sfExt16 (n : Nat) (s : State) : exec (.sfExt16 n) s = exec (.encExt16 n) s := rfl
theorem exec_sfTooLarge (n : Nat) (s : State) : exec (.sfTooLarge n) s = exec (.encTooLarge n) s := rfl

/-- A length of the short class fits the 7 bits of its wire form. -/
theorem exec_sfShort_ofNat {n : Nat} (s : State) (h : n ≤ 125) :
    exec (.sfShort (BitVec.ofNat 7 n)) s = exec (.encShort n) s := by
  rw [exec_sfShort, BitVec.toNat_ofNat, Nat.mod_eq_of_lt (by omega)]

/-- ENC.PAY where the address is an index of `ENC_BUF` (R73, R194). -/
theorem exec_encPay {s : State} (b : Byte) (h : s.enc.payAddr < Config.encCap s.par.encMax) :
    exec (.encPay b) s = encRow (decide (s.enc.st = .pay)) (s.enc.takePayload b) s :=
  if_neg fun hc => absurd hc.2 (Nat.not_le.mpr h)

theorem onlyEnc_withEnc (s : State) (e : Enc) : OnlyEnc s (s.withEnc e) := ⟨rfl, rfl, rfl, rfl⟩

/-! Which row an event selects (R201). -/

@[simp] theorem select_enc (e : EncEvent) (s : State) : select s (.enc e) = selectEnc s.par.encMax s.enc.st e := rfl

@[simp] theorem deliver_enc (e : EncEvent) (s : State) :
    deliver (.enc e) s = exec (selectEnc s.par.encMax s.enc.st e) s := rfl

theorem EncSt.accepts_iff (st : EncSt) : st.accepts = true ↔ st = .idle ∨ st = .done := by cases st <;> decide

theorem EncSt.not_accepts_iff (st : EncSt) : st.accepts = false ↔ st = .pay ∨ st = .err := by cases st <;> decide

/-! The three length classes of an invocation (R190): in each, ENC.INVOKE is the row of the class, whatever the state. -/

theorem Enc.invoke_short {n : Nat} (max : Config.EncMax) (e : Enc) (h : n ≤ 125) : e.invoke max n = e.startShort n :=
  if_pos ((fitsShort_iff n).mpr h)

theorem Enc.invoke_ext16 {max : Config.EncMax} {n : Nat} (e : Enc) (h : 125 < n) (hn : n ≤ max.val) :
    e.invoke max n = e.startExt16 n := by
  obtain ⟨hs, -⟩ | ⟨-, -, he⟩ | ⟨hl, -⟩ := e.invoke_cases max n
  · omega
  · exact he
  · omega

theorem Enc.invoke_tooLarge {max : Config.EncMax} {n : Nat} (e : Enc) (h : max.val < n) : e.invoke max n = e.refuse := by
  obtain ⟨hmax, -⟩ := encMax_bounds max
  obtain ⟨hs, -⟩ | ⟨-, hn, -⟩ | ⟨-, he⟩ := e.invoke_cases max n
  · omega
  · omega
  · exact he

theorem exec_encInvoke_short {n : Nat} (s : State) (h : n ≤ 125) : exec (.encInvoke n) s = exec (.encShort n) s := by
  rw [exec_encInvoke, exec_encShort, Enc.invoke_short _ _ h, (fitsShort_iff n).mpr h, Bool.and_true]

theorem exec_encInvoke_ext16 {n : Nat} {s : State} (h : 125 < n) (hn : n ≤ s.par.encMax.val) :
    exec (.encInvoke n) s = exec (.encExt16 n) s := by
  rw [exec_encInvoke, exec_encExt16, Enc.invoke_ext16 _ h hn, (fitsExt16_iff _ n).mpr ⟨h, hn⟩, Bool.and_true]

theorem exec_encInvoke_tooLarge {n : Nat} {s : State} (h : s.par.encMax.val < n) :
    exec (.encInvoke n) s = exec (.encTooLarge n) s := by
  rw [exec_encInvoke, exec_encTooLarge, Enc.invoke_tooLarge _ h, (tooLarge_iff _ n).mpr h, Bool.and_true]

/-- The event runs ENC.INVOKE: it selects the row of the length's class, or the row that changes nothing (R190, R195). -/
theorem deliver_invoke (n : Nat) (s : State) : deliver (.enc (.invoke n)) s = exec (.encInvoke n) s := by
  cases ha : s.enc.st.accepts with
  | false => simp [selectEnc, ha]
  | true =>
    obtain ⟨hs, -, -⟩ | ⟨hs, hx, -⟩ | ⟨hs, hx, hl⟩ := lengthClass_exactlyOne s.par.encMax n
    all_goals simp [selectEnc, Enc.invoke, *]

/-! The header each class writes (R191, R192). -/

theorem Enc.startShort_listed (n : Nat) (e : Enc) : (e.startShort n).buf.map Prod.fst = List.range 2 := rfl

theorem Enc.startExt16_listed (n : Nat) (e : Enc) : (e.startExt16 n).buf.map Prod.fst = List.range 4 := rfl

/-- An index that is not listed has no value (R58). -/
theorem Memory.read_eq_none_of_not_mem {m : Memory} {a : Nat} (h : a ∉ m.map Prod.fst) : Memory.read m a = none := by
  induction m with
  | nil => rfl
  | cons c rest ih =>
    obtain ⟨x, b⟩ := c
    obtain ⟨hx, hrest⟩ : a ≠ x ∧ a ∉ rest.map Prod.fst := by simpa using h
    rw [Memory.read, if_neg hx.symm, ih hrest]

theorem Enc.read_startShort_past_header (n : Nat) (e : Enc) {a : Nat} (h : 2 ≤ a) :
    Memory.read (e.startShort n).buf a = none := by
  apply Memory.read_eq_none_of_not_mem
  rw [Enc.startShort_listed, List.mem_range]
  omega

theorem Enc.read_startExt16_past_header (n : Nat) (e : Enc) {a : Nat} (h : 4 ≤ a) :
    Memory.read (e.startExt16 n).buf a = none := by
  apply Memory.read_eq_none_of_not_mem
  rw [Enc.startExt16_listed, List.mem_range]
  omega

/-- `ENC_N` holds every accepted length (R45). -/
theorem toNat_ofNat_of_le_encMax {max : Config.EncMax} {n : Nat} (h : n ≤ max.val) : (BitVec.ofNat 17 n).toNat = n := by
  obtain ⟨-, hmax⟩ := encMax_bounds max
  rw [BitVec.toNat_ofNat, Nat.mod_eq_of_lt (by omega)]

/-- Only the empty frame is finished by its header (R190, R191). -/
theorem Enc.invoke_tot {n : Nat} (max : Config.EncMax) (e : Enc) (h : n ≠ 0) : (e.invoke max n).tot = 0 := by
  obtain ⟨-, he⟩ | ⟨-, -, he⟩ | ⟨-, he⟩ := e.invoke_cases max n
  · rw [he]
    exact if_neg h
  · rw [he]
    rfl
  · rw [he, Enc.refuse_tot]

/-! Invocation (R190 to R193). -/

theorem exec_encShort_next {s : State} {n : Nat} (hst : s.enc.st = .idle ∨ s.enc.st = .done) (h : n ≤ 125) :
    exec (.encShort n) s = .next (s.withEnc (s.enc.startShort n)) := by
  simp [(EncSt.accepts_iff _).mpr hst, (fitsShort_iff n).mpr h]

theorem exec_encExt16_next {s : State} {n : Nat} (hst : s.enc.st = .idle ∨ s.enc.st = .done) (h : 125 < n)
    (hn : n ≤ s.par.encMax.val) : exec (.encExt16 n) s = .next (s.withEnc (s.enc.startExt16 n)) := by
  simp [(EncSt.accepts_iff _).mpr hst, (fitsExt16_iff _ n).mpr ⟨h, hn⟩]

theorem exec_encTooLarge_next {s : State} {n : Nat} (hst : s.enc.st = .idle ∨ s.enc.st = .done) (h : s.par.encMax.val < n) :
    exec (.encTooLarge n) s = .next (s.withEnc s.enc.refuse) := by
  simp [(EncSt.accepts_iff _).mpr hst, (tooLarge_iff _ n).mpr h]

/-- Settles O37: the step row, the wire form and the event all start the short frame. -/
theorem shortHeaderIsBuilt : Obligations.ShortHeaderIsBuilt := by
  intro s n hst h
  have hrow := exec_encShort_next hst h
  obtain ⟨hmax, -⟩ := encMax_bounds s.par.encMax
  exact ⟨_, hrow, (exec_sfShort_ofNat s h).trans hrow, (deliver_invoke n s).trans ((exec_encInvoke_short s h).trans hrow),
    rfl, rfl, fun a ha => Enc.read_startShort_past_header n s.enc ha,
    rfl, toNat_ofNat_of_le_encMax (max := s.par.encMax) (by omega), rfl, rfl, rfl, rfl, onlyEnc_withEnc _ _⟩

/-- Settles O38: the step row, the wire form and the event all start the frame with the 4-byte header. -/
theorem extendedHeaderIsBuilt : Obligations.ExtendedHeaderIsBuilt := by
  intro s n hst h hn
  have hrow := exec_encExt16_next hst h hn
  exact ⟨_, hrow, (exec_sfExt16 n s).trans hrow, (deliver_invoke n s).trans ((exec_encInvoke_ext16 h hn).trans hrow),
    rfl, rfl, rfl, rfl, fun a ha => Enc.read_startExt16_past_header n s.enc ha,
    rfl, toNat_ofNat_of_le_encMax hn, rfl, rfl, rfl, rfl, onlyEnc_withEnc _ _⟩

/-- Settles O39: the step row, the wire form and the event all refuse the message. -/
theorem tooLargeMessageIsRefused : Obligations.TooLargeMessageIsRefused := by
  intro s n hst h
  have hrow := exec_encTooLarge_next hst h
  exact ⟨_, hrow, (exec_sfTooLarge n s).trans hrow, (deliver_invoke n s).trans ((exec_encInvoke_tooLarge h).trans hrow),
    rfl, rfl, rfl, Memory.read_nil, rfl, rfl, rfl, rfl, onlyEnc_withEnc _ _⟩

/-- Settles O40: ENC.INVOKE is the row of the length's class, so its buffer is the buffer of that class. -/
theorem encoderInvocationChoosesOneClass : Obligations.EncoderInvocationChoosesOneClass := by
  intro s n
  refine ⟨fun hst => ?_, fun hst => ?_⟩
  · have hrow : exec (.encInvoke n) s = .next (s.withEnc (s.enc.invoke s.par.encMax n)) := by
      simp [(EncSt.accepts_iff _).mpr hst]
    refine ⟨_, hrow, fun h => ⟨exec_encInvoke_short s h ▸ hrow, fun a ha => ?_⟩,
      fun h hn => ⟨exec_encInvoke_ext16 h hn ▸ hrow, fun a ha => ?_⟩,
      fun h => ⟨exec_encInvoke_tooLarge h ▸ hrow, fun a => ?_⟩, s.enc.invoke_tot s.par.encMax⟩
    all_goals rw [withEnc_enc]
    · rw [Enc.invoke_short _ _ h, Enc.read_startShort_past_header n _ ha]
    · rw [Enc.invoke_ext16 _ h hn, Enc.read_startExt16_past_header n _ ha]
    · rw [Enc.invoke_tooLarge _ h, Enc.refuse_buf, Memory.read_nil]
  · rw [exec_encInvoke, (EncSt.not_accepts_iff _).mpr hst, encRow_false]

/-! The payload (R194). -/

/-- The buffer and the index after a payload byte, and the registers that no payload byte writes. -/
theorem Enc.takePayload_buf_frame (b : Byte) (e : Enc) :
    (e.takePayload b).buf = Memory.write e.buf e.payAddr b ∧ (e.takePayload b).idx = e.idx + 1 ∧
      (e.takePayload b).n = e.n ∧ (e.takePayload b).hlen = e.hlen ∧ (e.takePayload b).err = e.err := by
  obtain ⟨-, he⟩ | ⟨-, he⟩ := e.takePayload_cases b
  all_goals
    rw [he]
    exact ⟨rfl, rfl, rfl, rfl, rfl⟩

/-- Below `ENC_N` the index does not wrap. -/
theorem Enc.idx_succ_toNat {e : Enc} (h : e.idx.toNat < e.n.toNat) : (e.idx + 1).toNat = e.idx.toNat + 1 := by
  have hn : e.n.toNat < 131072 := e.n.isLt
  bv_omega

/-- A frame that fits `ENC_BUF` has a length that fits `ENC_TOT` (R48, R151). -/
theorem tot_toNat {max : Config.EncMax} {hlen : BitVec 3} {n : BitVec 17}
    (h : hlen.toNat + n.toNat ≤ Config.encCap max) : (hlen.setWidth 17 + n).toNat = hlen.toNat + n.toNat := by
  obtain ⟨-, hmax⟩ := encMax_bounds max
  rw [Config.encCap] at h
  bv_omega

/-- Settles O41: the write is at `ENC_HLEN + ENC_IDX`; the last byte completes the frame. -/
theorem payloadByteIsCopied : Obligations.PayloadByteIsCopied := by
  intro s b hst hidx haddr
  have hsucc := Enc.idx_succ_toNat hidx
  have hlast : s.enc.idx + 1 = s.enc.n ↔ s.enc.idx.toNat + 1 = s.enc.n.toNat := by rw [← BitVec.toNat_inj, hsucc]
  obtain ⟨hbuf, hi, hn, hhlen, herr⟩ := s.enc.takePayload_buf_frame b
  refine ⟨s.withEnc (s.enc.takePayload b), by simp [exec_encPay b haddr, hst], ?_, fun a ha => ?_, ?_, fun h => ?_, fun h => ?_,
    hn, hhlen, herr, onlyEnc_withEnc _ _⟩
  all_goals rw [withEnc_enc]
  · rw [hbuf]
    exact Memory.read_write_same _ _ _
  · rw [hbuf]
    exact Memory.read_write_other _ _ ha
  · rw [hi, hsucc]
  · have hfit : s.enc.hlen.toNat + s.enc.n.toNat ≤ Config.encCap s.par.encMax := by rw [Enc.payAddr] at haddr; omega
    obtain ⟨-, he⟩ | ⟨hne, -⟩ := s.enc.takePayload_cases b
    · rw [he]
      exact ⟨tot_toNat hfit, rfl⟩
    · exact absurd (hlast.mpr h) hne
  · obtain ⟨heq, -⟩ | ⟨-, he⟩ := s.enc.takePayload_cases b
    · exact absurd (hlast.mp heq) h.ne
    · rw [he]
      exact ⟨rfl, hst⟩

/-! Ignored events (R195). -/

/-- Settles O42: each listed pair selects ENC.IGNORE. -/
theorem unawaitedEncoderEventsAreIgnored : Obligations.UnawaitedEncoderEventsAreIgnored := by
  intro s e h
  suffices hsel : selectEnc s.par.encMax s.enc.st e = .encIgnore e from
    ⟨hsel, rfl, by rw [deliver_enc, hsel, exec_encIgnore]⟩
  rcases h with ⟨⟨n, rfl⟩, hst⟩ | ⟨⟨b, rfl⟩, hst⟩
  · exact if_neg (by simp [(EncSt.not_accepts_iff _).mpr hst])
  · exact if_neg fun hpay => by simp [hpay] at hst

/-! The finished frame (R196). -/

@[simp] theorem Enc.frame_length (e : Enc) : e.frame.length = e.tot.toNat := by simp [Enc.frame]

theorem Enc.frame_getElem (e : Enc) {i : Nat} (h : i < e.frame.length) :
    e.frame[i] = (Memory.read e.buf i).getD (Config.encUnwritten i) := by simp [Enc.frame]

/-- In `E_DONE` every index below `ENC_TOT` is written (R73, R194). -/
theorem Enc.Inv.read_frame {max : Config.EncMax} {e : Enc} (h : e.Inv max) (hst : e.st = .done) {i : Nat}
    (hi : i < e.frame.length) : Memory.read e.buf i = some e.frame[i] := by
  have hmem : i ∈ e.buf.map Prod.fst := by
    rw [h.filled (.inr hst), List.mem_range, h.full hst, ← h.totDone hst, ← Enc.frame_length]
    exact hi
  obtain ⟨b, hb⟩ := Memory.exists_read_of_mem hmem
  rw [Enc.frame_getElem, hb, Option.getD_some]

/-- Settles O43: the window shows `ENC_BUF`, and under the invariant the whole of it is written. -/
theorem readReturnsTheFrameByte : Obligations.ReadReturnsTheFrameByte := by
  intro s i
  refine ⟨fun b hst hi hb => ?_, ?_, fun hinv hst => ?_⟩
  · have hw : s.enc.inWindow i.toNat = true := by simp [Enc.inWindow, hst, hi]
    rw [exec_encRead, Enc.readByte, if_pos hw, hb]
    rfl
  · obtain ⟨-, he⟩ | ⟨-, he⟩ := s.enc.readByte_cases i.toNat
    all_goals
      rw [exec_encRead, he]
      exact ⟨_, _, rfl, rfl, ⟨rfl, rfl, rfl, rfl, rfl, rfl, rfl⟩, onlyEnc_withEnc _ _⟩
  · exact ⟨s.enc.frame, s.enc.frame_length, fun j hj => hinv.enc.read_frame hst hj⟩

end Sys2Proof.Machine
end

section
/-! PROOFS. The text check (43_text_check, R210): what its row shows, and that only the parameter and the sequence decide it. -/

namespace Sys2Proof.Machine

@[simp] theorem exec_utf8Valid (p : List Byte) (s : State) :
    exec (.utf8Valid p) s = .next (s.withResult (.flag (utf8Valid s.par.text p))) := rfl

/-- Two states with the same text rule show the same truth value (R210). -/
theorem exec_utf8Valid_of_text_eq (p : List Byte) {s u : State} (h : u.par.text = s.par.text) :
    exec (.utf8Valid p) u = .next (u.withResult (.flag (utf8Valid s.par.text p))) := by
  rw [exec_utf8Valid, h]

/-- Settles O13: the row shows `utf8Valid` under the state's text rule, and both text rules accept the empty sequence. -/
theorem textCheckIsTotalAndAcceptsEmpty : Obligations.TextCheckIsTotalAndAcceptsEmpty := by
  intro p s
  refine ⟨utf8Valid s.par.text p, exec_utf8Valid p s, rfl, ?_, fun _ h => exec_utf8Valid_of_text_eq p h⟩
  rintro rfl
  exact utf8Valid_nil s.par.text

end Sys2Proof.Machine
end

section
/-! PROOFS. Errors (60_exceptions, R232): everything a row other than RESET can do to a state, and that no such row moves a unit out
of its error state. -/

namespace Sys2Proof.Machine

/-! Rows. -/

@[simp] theorem exec_reset (s : State) : exec .reset s = .next ((s.withDec s.dec.restart).withEnc s.enc.restart) := rfl

/-- DEC.PAY without a fault (R170; log entry 16). -/
theorem exec_decPay_of_next {b : Byte} {s t : State} (h : exec (.decPay b) s = .next t) :
    decRow (decide (s.dec.st = .pay)) (s.dec.takePayload b) s = .next t := by
  simp only [exec, execDecPay] at h
  split at h
  · cases h
  · exact h

/-- ENC.PAY without a fault (R194; log entry 16). -/
theorem exec_encPay_of_next {b : Byte} {s t : State} (h : exec (.encPay b) s = .next t) :
    encRow (decide (s.enc.st = .pay)) (s.enc.takePayload b) s = .next t := by
  simp only [exec, execEncPay] at h
  split at h
  · cases h
  · exact h

/-! What a row other than RESET does. -/

/-- The effects of the rows other than RESET. A unit moves only where it is not in its error state; a read is answered in every
state. -/
inductive RowEffect (s : State) : State → Prop
  | unchanged : RowEffect s s
  | decMoves (d : Dec) (hst : s.dec.st ≠ .err) : RowEffect s (s.withDec d)
  | decReads (i : Nat) : RowEffect s (s.withDec (s.dec.readByte i))
  | encMoves (e : Enc) (hst : s.enc.st ≠ .err) : RowEffect s (s.withEnc e)
  | encReads (i : Nat) : RowEffect s (s.withEnc (s.enc.readByte i))
  | shows (v : Value) : RowEffect s (s.withResult v)

@[simp] theorem DecSt.accepts_err : DecSt.err.accepts = false := rfl
@[simp] theorem DecSt.awaiting_err : DecSt.err.awaiting = false := rfl
@[simp] theorem EncSt.accepts_err : EncSt.err.accepts = false := rfl

/-- A decoder row whose condition the error state does not meet. -/
theorem decRow_effect {fires : Bool} {d : Dec} {s t : State} (h : decRow fires d s = .next t)
    (herr : s.dec.st = .err → fires = false) : RowEffect s t := by
  obtain ⟨hf, rfl⟩ | ⟨-, rfl⟩ := decRow_cases h
  · exact .decMoves d fun hst => by simp [herr hst] at hf
  · exact .unchanged

/-- An encoder row whose condition the error state does not meet. -/
theorem encRow_effect {fires : Bool} {e : Enc} {s t : State} (h : encRow fires e s = .next t)
    (herr : s.enc.st = .err → fires = false) : RowEffect s t := by
  obtain ⟨hf, rfl⟩ | ⟨-, rfl⟩ := encRow_cases h
  · exact .encMoves e fun hst => by simp [herr hst] at hf
  · exact .unchanged

/-- Every row but RESET is a move of one unit under a condition that excludes the error state, a read, an ignored event or a
function. -/
theorem exec_effect {i : Instr} {s t : State} (hi : i ≠ .reset) (h : exec i s = .next t) : RowEffect s t := by
  cases i with
  | reset => exact absurd rfl hi
  | decIgnore | encIgnore => cases h; exact .unchanged
  | decRead i => cases h; exact .decReads i.toNat
  | encRead i => cases h; exact .encReads i.toNat
  | decPay b => exact decRow_effect (exec_decPay_of_next h) fun hst => by simp [hst]
  | encPay b => exact encRow_effect (exec_encPay_of_next h) fun hst => by simp [hst]
  | cfB0Any | cfB1Unmasked | cfB1Short | cfB1Ext16 | cfB1Ext64 | decB0 | decB1Unmasked | decB1 | decB1Short | decB1Ext16
  | decB1Ext64 | decXh | decXl | decKey | decCheck | decInvoke | decRxFail =>
    exact decRow_effect h fun hst => by simp [hst]
  | encInvoke | encShort | encExt16 | encTooLarge | sfShort | sfExt16 | sfTooLarge =>
    exact encRow_effect h fun hst => by simp [hst]
  | maskbit | mark7 | be16 | hi8 | lo8 | unmask1 | unmask | isInline | isExt16 | isExt64 | fitsShort | fitsExt16 | tooLarge
  | utf8Valid | decodeFrame | encodeMessage => cases h; exact .shows _

/-! What is kept. -/

theorem SameDecRegs.refl (d : Dec) : SameDecRegs d d := ⟨rfl, rfl, rfl, rfl, rfl, rfl, rfl, rfl, rfl⟩

theorem SameEncRegs.refl (e : Enc) : SameEncRegs e e := ⟨rfl, rfl, rfl, rfl, rfl, rfl, rfl⟩

theorem Dec.readByte_sameDecRegs (i : Nat) (d : Dec) : SameDecRegs d (d.readByte i) := by
  obtain ⟨-, hd⟩ | ⟨-, hd⟩ := d.readByte_cases i
  all_goals
    rw [hd]
    exact .refl d

theorem Enc.readByte_sameEncRegs (i : Nat) (e : Enc) : SameEncRegs e (e.readByte i) := by
  obtain ⟨-, he⟩ | ⟨-, he⟩ := e.readByte_cases i
  all_goals
    rw [he]
    exact .refl e

theorem RowEffect.keeps_dec_error {s t : State} (h : RowEffect s t) (hst : s.dec.st = .err) : SameDecRegs s.dec t.dec := by
  cases h with
  | decMoves d hne => exact absurd hst hne
  | decReads i => exact s.dec.readByte_sameDecRegs i
  | unchanged | encMoves | encReads | shows => exact .refl s.dec

theorem RowEffect.keeps_enc_error {s t : State} (h : RowEffect s t) (hst : s.enc.st = .err) : SameEncRegs s.enc t.enc := by
  cases h with
  | encMoves e hne => exact absurd hst hne
  | encReads i => exact s.enc.readByte_sameEncRegs i
  | unchanged | decMoves | decReads | shows => exact .refl s.enc

/-! RESET (R260). -/

@[simp] theorem Dec.restart_st (d : Dec) : d.restart.st = .idle := rfl
@[simp] theorem Dec.restart_err (d : Dec) : d.restart.err = .none := rfl
@[simp] theorem Enc.restart_st (e : Enc) : e.restart.st = .idle := rfl
@[simp] theorem Enc.restart_err (e : Enc) : e.restart.err = .none := rfl

/-- Settles O52: a row other than RESET moves no unit that is in its error state; RESET restarts both units. -/
theorem errorIsKeptUntilReset : Obligations.ErrorIsKeptUntilReset := by
  refine ⟨fun i s t hi h => ?_, fun s => ⟨_, exec_reset s, by simp⟩⟩
  have heff := exec_effect hi h
  exact ⟨heff.keeps_dec_error, heff.keeps_enc_error⟩

end Sys2Proof.Machine
end

section
/-! PROOFS. RESET (70_reset_and_hazards, R260): both units restarted, the parameters and the streams as before. -/

namespace Sys2Proof.Machine

@[simp] theorem Dec.restart_buf (d : Dec) : d.restart.buf = [] := rfl
@[simp] theorem Enc.restart_buf (e : Enc) : e.restart.buf = [] := rfl
@[simp] theorem Enc.restart_tot (e : Enc) : e.restart.tot = 0 := rfl

/-! The status lines (R32, R33) are functions of the two sequencers. -/

theorem decStatus_of_idle {s : State} (h : s.dec.st = .idle) :
    s.rxReady = false ∧ s.decBusy = false ∧ s.decDone = false ∧ s.decErr = false := by
  simp [State.rxReady, State.decBusy, State.decDone, State.decErr, DecSt.awaiting, h]

theorem encStatus_of_idle {s : State} (h : s.enc.st = .idle) :
    s.plReady = false ∧ s.encBusy = false ∧ s.encDone = false ∧ s.encErr = false := by
  simp [State.plReady, State.encBusy, State.encDone, State.encErr, h]

theorem fatal_eq_false {s : State} (hdec : s.decErr = false) (henc : s.encErr = false) : s.fatal = false := by
  simp [State.fatal, hdec, henc]

/-- Settles O47: RESET restarts both units and touches nothing else; two idle units drive every status line to 0. -/
theorem resetReturnsBothUnitsToIdle : Obligations.ResetReturnsBothUnitsToIdle := by
  intro s
  obtain ⟨hready, hbusy, hdone, herr⟩ :=
    decStatus_of_idle (s := (s.withDec s.dec.restart).withEnc s.enc.restart) s.dec.restart_st
  obtain ⟨hready', hbusy', hdone', herr'⟩ :=
    encStatus_of_idle (s := (s.withDec s.dec.restart).withEnc s.enc.restart) s.enc.restart_st
  exact ⟨_, exec_reset s, s.dec.restart_st, s.dec.restart_err, s.enc.restart_st, s.enc.restart_err, s.enc.restart_tot,
    by simp, by simp, hready, hbusy, hdone, herr, hready', hbusy', hdone', herr', fatal_eq_false herr herr', rfl, rfl⟩

end Sys2Proof.Machine
end

section
/-! PROOFS. The wire forms (30_encoding, R101 to R126): what the decoder reads at each position, by the class of the byte or of the
length, and the obligations about encoding and decoding. -/

namespace Sys2Proof.Machine

/-! Header byte 1 of a client frame (R109). -/

/-- The four rows of R109. -/
theorem byte1_classes (b : Byte) : b.toNat < 128 ∨ (128 ≤ b.toNat ∧ b.toNat - 128 ≤ 125) ∨ b = 0xFE ∨ b = 0xFF := by
  bv_omega

theorem decodeByte1_unmasked {b : Byte} (h : b.toNat < 128) : decodeByte1 b = .cfB1Unmasked (BitVec.ofNat 7 b.toNat) :=
  if_neg fun hm => absurd ((maskbit_iff b).mp hm) (Nat.not_le.mpr h)

theorem decodeByte1_short {b : Byte} (h : 128 ≤ b.toNat) (hm : b.toNat - 128 ≤ 125) : decodeByte1 b = .cfB1Short (mark7 b) := by
  have hi : isInline (mark7 b) = true := by rwa [isInline_iff, mark7_toNat h]
  simp [decodeByte1, (maskbit_iff b).mpr h, hi]

theorem decodeByte1_ext16 : decodeByte1 0xFE = .cfB1Ext16 := rfl

theorem decodeByte1_ext64 : decodeByte1 0xFF = .cfB1Ext64 := rfl

/-- The mask bit and a marker together are the byte. -/
theorem mark7_maskBit_add {m : BitVec 7} : mark7 (BitVec.ofNat 8 (128 + m.toNat)) = m := by
  have hm : m.toNat < 128 := m.isLt
  have hb : (BitVec.ofNat 8 (128 + m.toNat)).toNat = 128 + m.toNat := by rw [BitVec.toNat_ofNat]; omega
  apply BitVec.eq_of_toNat_eq
  rw [mark7_toNat (by omega), hb]
  omega

/-- Settles O2: the class of the byte is the form. -/
theorem headerByteOneForms : Obligations.HeaderByteOneForms := by
  intro b
  refine ⟨fun h => ?_, fun h h' => ?_, fun h => ?_, fun h => ?_⟩
  · refine ⟨BitVec.ofNat 7 b.toNat, congrArg Decoded.ok (decodeByte1_unmasked (by omega)), ?_⟩
    rw [BitVec.toNat_ofNat]
    omega
  · exact ⟨mark7 b, congrArg Decoded.ok (decodeByte1_short h (by omega)), mark7_toNat h⟩
  · rw [h]
    exact congrArg Decoded.ok decodeByte1_ext16
  · rw [h]
    exact congrArg Decoded.ok decodeByte1_ext64

/-! The header of a server frame (R120 to R125). -/

theorem decode_sfShort {b : Byte} (h : b.toNat ≤ 125) : decode .sfHeader [0x81, b] = .ok (.sfShort (BitVec.ofNat 7 b.toNat)) := by
  have hm : maskbit b = false := by rw [← Bool.not_eq_true, maskbit_iff]; omega
  simp [decode, decodeServer, decodeServerLength, Config.sfByte0, Config.finBit, Config.opcText, hm, h]

theorem decode_sfExt16 (h l : Byte) : decode .sfHeader [0x81, 0x7E, h, l] = decodeExtLength h l := rfl

/-- The two length bytes of a length of the 16-bit class, 65536 included, whose bytes are 0 (R123). -/
theorem decodeExtLength_of_length {n : Nat} (h : 126 ≤ n) (hn : n ≤ 65536) :
    decodeExtLength (hi8 n) (lo8 n) = .ok (.sfExt16 n) := by
  have hlen : (be16 (hi8 n) (lo8 n)).toNat = n % 65536 := by
    rw [be16_toNat, hi8_toNat, lo8_toNat]
    omega
  unfold decodeExtLength
  rw [hlen]
  obtain rfl | hlt := Nat.eq_or_lt_of_le hn
  · rfl
  · rw [Nat.mod_eq_of_lt hlt, if_neg (by omega), if_neg (by omega)]

/-- Settles O3: by row; each row's bytes are of the class the row stands for. -/
theorem decodeOfEncode : Obligations.DecodeOfEncode := by
  intro i p bs hwf h
  cases i with
  | cfB0Any b => cases h; rfl
  | cfB1Unmasked m =>
    cases h
    have hm : (BitVec.ofNat 8 m.toNat).toNat = m.toNat := by rw [BitVec.toNat_ofNat]; omega
    refine congrArg Decoded.ok ((decodeByte1_unmasked (by omega)).trans ?_)
    rw [hm, BitVec.ofNat_toNat, BitVec.setWidth_eq]
  | cfB1Short m =>
    cases h
    have hle : m.toNat ≤ 125 := of_decide_eq_true hwf
    have hb : (BitVec.ofNat 8 (128 + m.toNat)).toNat = 128 + m.toNat := by rw [BitVec.toNat_ofNat]; omega
    refine congrArg Decoded.ok ((decodeByte1_short (by omega) (by omega)).trans ?_)
    rw [mark7_maskBit_add]
  | cfB1Ext16 => cases h; exact congrArg Decoded.ok decodeByte1_ext16
  | cfB1Ext64 => cases h; exact congrArg Decoded.ok decodeByte1_ext64
  | sfShort n =>
    cases h
    have hle : n.toNat ≤ 125 := of_decide_eq_true hwf
    have hb : (BitVec.ofNat 8 n.toNat).toNat = n.toNat := by rw [BitVec.toNat_ofNat]; omega
    rw [decode_sfShort (by omega), hb, BitVec.ofNat_toNat, BitVec.setWidth_eq]
  | sfExt16 n =>
    cases h
    obtain ⟨hlo, hhi⟩ : 126 ≤ n ∧ n ≤ 65536 := of_decide_eq_true hwf
    rw [decode_sfExt16, decodeExtLength_of_length hlo hhi]
  | sfTooLarge | decInvoke | decB0 | decB1Unmasked | decB1 | decB1Short | decB1Ext16 | decB1Ext64 | decXh | decXl | decKey
  | decPay | decRxFail | decCheck | decIgnore | decRead | encInvoke | encShort | encExt16 | encTooLarge | encPay | encIgnore
  | encRead | reset | maskbit | mark7 | be16 | hi8 | lo8 | unmask1 | unmask | isInline | isExt16 | isExt64 | fitsShort
  | fitsExt16 | tooLarge | utf8Valid | decodeFrame | encodeMessage => cases h

/-! What bytes that decode look like. -/

/-- The bytes of a server frame header are 2, with a length up to 125, or 4. -/
theorem decodeServer_cases {bs : List Byte} {i : Instr} (h : decodeServer bs = .ok i) :
    (∃ b : Byte, b.toNat ≤ 125 ∧ bs = [0x81, b] ∧ i = .sfShort (BitVec.ofNat 7 b.toNat)) ∨
    (∃ hi lo : Byte, bs = [0x81, 0x7E, hi, lo] ∧ decodeExtLength hi lo = .ok i) := by
  unfold decodeServer at h
  split at h
  · cases h
  · rename_i b0 rest
    split at h
    · rename_i hb0
      obtain rfl : b0 = 0x81 := hb0
      unfold decodeServerLength at h
      split at h
      · cases h
      · split_ifs at h with hm hle hx
        · split at h
          · cases h
            exact .inl ⟨_, hle, rfl, rfl⟩
          · cases h
        · split at h
          · rename_i b1 _ hi lo
            obtain rfl : b1 = 0x7E := BitVec.eq_of_toNat_eq hx
            exact .inr ⟨hi, lo, rfl, h⟩
          · cases h
          · cases h
    · cases h

/-- The two length bytes that stand for a length are that length's, which is of the 16-bit class. -/
theorem decodeExtLength_cases {hi lo : Byte} {i : Instr} (h : decodeExtLength hi lo = .ok i) :
    ∃ n, i = .sfExt16 n ∧ 126 ≤ n ∧ n ≤ 65536 ∧ hi8 n = hi ∧ lo8 n = lo := by
  have hhi : hi.toNat < 256 := hi.isLt
  have hlo : lo.toNat < 256 := lo.isLt
  have hbytes (n : Nat) (hn : n % 65536 = hi.toNat * 256 + lo.toNat) : hi8 n = hi ∧ lo8 n = lo := by
    refine ⟨BitVec.eq_of_toNat_eq ?_, BitVec.eq_of_toNat_eq ?_⟩
    · rw [hi8_toNat]
      omega
    · rw [lo8_toNat]
      omega
  unfold decodeExtLength at h
  rw [be16_toNat] at h
  split_ifs at h with h0 hmin
  · cases h
    exact ⟨65536, rfl, by decide, le_rfl, hbytes _ (by omega)⟩
  · cases h
    exact ⟨_, rfl, by omega, by omega, hbytes _ (by omega)⟩

theorem encode_decodeByte1 (b : Byte) : encode (decodeByte1 b) = some (.cfByte1, [b]) ∧ (decodeByte1 b).wf = true := by
  obtain h | ⟨h, hm⟩ | rfl | rfl := byte1_classes b
  · rw [decodeByte1_unmasked h]
    refine ⟨?_, rfl⟩
    rw [encode, BitVec.toNat_ofNat, Nat.mod_eq_of_lt h, BitVec.ofNat_toNat, BitVec.setWidth_eq]
  · rw [decodeByte1_short h hm]
    refine ⟨?_, decide_eq_true (by rwa [mark7_toNat h])⟩
    rw [encode, mark7_toNat h, Nat.add_sub_of_le h, BitVec.ofNat_toNat, BitVec.setWidth_eq]
  · exact ⟨rfl, rfl⟩
  · exact ⟨rfl, rfl⟩

/-- Settles O4: by position; the inversion lemmas give the bytes back. -/
theorem encodeOfDecode : Obligations.EncodeOfDecode := by
  intro p bs i h
  cases p with
  | cfByte0 =>
    match bs, h with
    | [_], rfl => exact ⟨rfl, rfl⟩
  | cfByte1 =>
    match bs, h with
    | [b], rfl => exact encode_decodeByte1 b
  | sfHeader =>
    obtain ⟨b, hb, rfl, rfl⟩ | ⟨hi, lo, rfl, hx⟩ := decodeServer_cases h
    · have hn : (BitVec.ofNat 7 b.toNat).toNat = b.toNat := by rw [BitVec.toNat_ofNat]; omega
      refine ⟨?_, decide_eq_true (by rwa [hn])⟩
      rw [encode, hn, BitVec.ofNat_toNat, BitVec.setWidth_eq]
    · obtain ⟨n, rfl, hlo, hhi, rfl, rfl⟩ := decodeExtLength_cases hx
      exact ⟨rfl, decide_eq_true ⟨hlo, hhi⟩⟩

/-- Settles O1: the fixed words, evaluated. -/
theorem specWordsDecode : Obligations.SpecWordsDecode := by
  unfold Obligations.SpecWordsDecode
  decide

/-! A wire form runs its step row (R130). -/

/-- The wire form of a byte and the row that the byte's event selects are one transition. -/
theorem exec_decodeByte1 (b : Byte) (s : State) : exec (decodeByte1 b) s = exec (selectByte1 b) s := by
  obtain hb | ⟨hb, hm⟩ | rfl | rfl := byte1_classes b
  · have hmask : maskbit b = false := by rw [← Bool.not_eq_true, maskbit_iff]; omega
    rw [decodeByte1_unmasked hb, selectByte1_unmasked hb, exec_cfB1Unmasked, exec_decB1Unmasked, hmask, Bool.not_false,
      Bool.and_true]
  · rw [decodeByte1_short hb hm, selectByte1_short hb hm, exec_cfB1Short, exec_decB1Short, (maskbit_iff b).mpr hb, Bool.and_true]
  · rfl
  · rfl

/-- Settles O5: by position. -/
theorem wireFormsRunTheirSteps : Obligations.WireFormsRunTheirSteps := by
  intro s b i
  refine ⟨fun hst h => ?_, fun hst h => ?_⟩
  · cases h
    rw [deliver_rxByte_b0 b hst, exec_cfB0Any, exec_decB0]
  · cases h
    rw [deliver_rxByte_b1 b hst, exec_decodeByte1 b s]

end Sys2Proof.Machine
end

section
/-! PROOFS. What a row does to a state: the transitions of each unit with the states they start in, and that every row is one of them,
a read, a function, RESET, or changes nothing. What every row keeps follows. -/

namespace Sys2Proof.Machine

/-- The transitions of the decoder unit, each in the state that selects it (R160 to R172). -/
inductive Dec.Moves (rule : Config.TextRule) (d : Dec) : Dec → Prop
  | start (hst : d.st = .idle ∨ d.st = .done) : Moves rule d d.start
  | byte0 (hst : d.st = .b0) : Moves rule d d.takeByte0
  | unmasked (hst : d.st = .b1) : Moves rule d d.takeUnmasked
  | short (m : BitVec 7) (hst : d.st = .b1) (hm : m.toNat ≤ 125) : Moves rule d (d.takeShort m)
  | ext16 (hst : d.st = .b1) : Moves rule d d.takeExt16
  | ext64 (hst : d.st = .b1) : Moves rule d d.takeExt64
  | lenHi (b : Byte) (hst : d.st = .xh) : Moves rule d (d.takeLenHi b)
  | lenLo (b : Byte) (hst : d.st = .xl) : Moves rule d (d.takeLenLo b)
  | key (b : Byte) (hst : d.st = .key) : Moves rule d (d.takeKey b)
  | payload (b : Byte) (hst : d.st = .pay) : Moves rule d (d.takePayload b)
  | fail (hst : d.st.awaiting = true) : Moves rule d (d.raise .transportFailure)
  | check (hst : d.st = .chk) : Moves rule d (d.check rule)

/-- The transitions of the encoder unit, each in the states and for the lengths that select it (R191 to R194). -/
inductive Enc.Moves (max : Config.EncMax) (e : Enc) : Enc → Prop
  | short (n : Nat) (hst : e.st = .idle ∨ e.st = .done) (hn : n ≤ 125) : Moves max e (e.startShort n)
  | ext16 (n : Nat) (hst : e.st = .idle ∨ e.st = .done) (hn : 125 < n) (hmax : n ≤ max.val) : Moves max e (e.startExt16 n)
  | refuse (hst : e.st = .idle ∨ e.st = .done) : Moves max e e.refuse
  | payload (b : Byte) (hst : e.st = .pay) : Moves max e (e.takePayload b)

/-- What the row `i` can do to a state. -/
inductive RowMoves (i : Instr) (s : State) : State → Prop
  | unchanged : RowMoves i s s
  | dec (d : Dec) (h : s.dec.Moves s.par.text d) : RowMoves i s (s.withDec d)
  | decReads (a : Nat) : RowMoves i s (s.withDec (s.dec.readByte a))
  | enc (e : Enc) (h : s.enc.Moves s.par.encMax e) : RowMoves i s (s.withEnc e)
  | encReads (a : Nat) : RowMoves i s (s.withEnc (s.enc.readByte a))
  | shows (v : Value) : RowMoves i s (s.withResult v)
  | reset (hi : i = .reset) : RowMoves i s ((s.withDec s.dec.restart).withEnc s.enc.restart)

theorem decRow_moves {i : Instr} {fires : Bool} {d : Dec} {s t : State} (h : decRow fires d s = .next t)
    (hd : fires = true → s.dec.Moves s.par.text d) : RowMoves i s t := by
  obtain ⟨hf, rfl⟩ | ⟨-, rfl⟩ := decRow_cases h
  · exact .dec d (hd hf)
  · exact .unchanged

theorem encRow_moves {i : Instr} {fires : Bool} {e : Enc} {s t : State} (h : encRow fires e s = .next t)
    (he : fires = true → s.enc.Moves s.par.encMax e) : RowMoves i s t := by
  obtain ⟨hf, rfl⟩ | ⟨-, rfl⟩ := encRow_cases h
  · exact .enc e (he hf)
  · exact .unchanged

/-- Header byte 1 with the mask bit starts the class of its marker (R163). -/
theorem Dec.takeByte1_moves (rule : Config.TextRule) {d : Dec} (b : Byte) (hst : d.st = .b1) :
    d.Moves rule (d.takeByte1 b) := by
  obtain ⟨hm, hd⟩ | ⟨-, -, hd⟩ | ⟨-, -, hd⟩ := d.takeByte1_cases b
  · exact hd ▸ .short _ hst ((isInline_iff _).mp hm)
  · exact hd ▸ .ext16 hst
  · exact hd ▸ .ext64 hst

/-- An invocation starts the class of its length (R190). -/
theorem Enc.invoke_moves {max : Config.EncMax} {e : Enc} (n : Nat) (hst : e.st = .idle ∨ e.st = .done) :
    e.Moves max (e.invoke max n) := by
  obtain ⟨hn, he⟩ | ⟨hn, hmax, he⟩ | ⟨-, he⟩ := e.invoke_cases max n
  · exact he ▸ .short n hst hn
  · exact he ▸ .ext16 n hst hn hmax
  · exact he ▸ .refuse hst

/-- A short header, by the step row or the wire form. -/
theorem encShort_moves {i : Instr} {n : Nat} {s t : State}
    (h : encRow (s.enc.st.accepts && fitsShort n) (s.enc.startShort n) s = .next t) : RowMoves i s t := by
  refine encRow_moves h fun hf => ?_
  rw [Bool.and_eq_true, EncSt.accepts_iff, fitsShort_iff] at hf
  exact .short n hf.1 hf.2

theorem encExt16_moves {i : Instr} {n : Nat} {s t : State}
    (h : encRow (s.enc.st.accepts && fitsExt16 s.par.encMax n) (s.enc.startExt16 n) s = .next t) : RowMoves i s t := by
  refine encRow_moves h fun hf => ?_
  rw [Bool.and_eq_true, EncSt.accepts_iff, fitsExt16_iff] at hf
  exact .ext16 n hf.1 hf.2.1 hf.2.2

theorem encTooLarge_moves {i : Instr} {n : Nat} {s t : State}
    (h : encRow (s.enc.st.accepts && tooLarge s.par.encMax n) s.enc.refuse s = .next t) : RowMoves i s t := by
  refine encRow_moves h fun hf => ?_
  rw [Bool.and_eq_true, EncSt.accepts_iff] at hf
  exact .refuse hf.1

/-- Every row is one of these. -/
theorem exec_moves {i : Instr} {s t : State} (h : exec i s = .next t) : RowMoves i s t := by
  cases i with
  | reset => cases h; exact .reset rfl
  | decIgnore | encIgnore => cases h; exact .unchanged
  | decRead a => cases h; exact .decReads a.toNat
  | encRead a => cases h; exact .encReads a.toNat
  | decInvoke => exact decRow_moves h fun hf => .start ((DecSt.accepts_iff _).mp hf)
  | cfB0Any b | decB0 b => exact decRow_moves h fun hf => .byte0 (of_decide_eq_true hf)
  | cfB1Unmasked m => exact decRow_moves h fun hf => .unmasked (of_decide_eq_true hf)
  | decB1Unmasked b =>
    refine decRow_moves h fun hf => .unmasked ?_
    rw [Bool.and_eq_true, decide_eq_true_iff] at hf
    exact hf.1
  | decB1 b =>
    refine decRow_moves h fun hf => Dec.takeByte1_moves _ b ?_
    rw [Bool.and_eq_true, decide_eq_true_iff] at hf
    exact hf.1
  | decB1Short b =>
    refine decRow_moves h fun hf => ?_
    rw [Bool.and_eq_true, Bool.and_eq_true, decide_eq_true_iff, isInline_iff] at hf
    exact .short _ hf.1.1 hf.2
  | cfB1Short m =>
    refine decRow_moves h fun hf => ?_
    rw [Bool.and_eq_true, decide_eq_true_iff, isInline_iff] at hf
    exact .short m hf.1 hf.2
  | cfB1Ext16 | decB1Ext16 => exact decRow_moves h fun hf => .ext16 (of_decide_eq_true hf)
  | cfB1Ext64 | decB1Ext64 => exact decRow_moves h fun hf => .ext64 (of_decide_eq_true hf)
  | decXh b => exact decRow_moves h fun hf => .lenHi b (of_decide_eq_true hf)
  | decXl b => exact decRow_moves h fun hf => .lenLo b (of_decide_eq_true hf)
  | decKey b => exact decRow_moves h fun hf => .key b (of_decide_eq_true hf)
  | decPay b => exact decRow_moves (exec_decPay_of_next h) fun hf => .payload b (of_decide_eq_true hf)
  | decRxFail => exact decRow_moves h fun hf => .fail hf
  | decCheck => exact decRow_moves h fun hf => .check (of_decide_eq_true hf)
  | encInvoke n => exact encRow_moves h fun hf => Enc.invoke_moves n ((EncSt.accepts_iff _).mp hf)
  | encShort | sfShort => exact encShort_moves h
  | encExt16 | sfExt16 => exact encExt16_moves h
  | encTooLarge | sfTooLarge => exact encTooLarge_moves h
  | encPay b => exact encRow_moves (exec_encPay_of_next h) fun hf => .payload b (of_decide_eq_true hf)
  | maskbit | mark7 | be16 | hi8 | lo8 | unmask1 | unmask | isInline | isExt16 | isExt64 | fitsShort | fitsExt16 | tooLarge
  | utf8Valid | decodeFrame | encodeMessage => cases h; exact .shows _

/-- Settles O56: a row replaces a unit or shows a result. -/
theorem rowsKeepParametersAndEnvironment : Obligations.RowsKeepParametersAndEnvironment := by
  intro i s t h
  cases exec_moves h with
  | unchanged | dec | decReads | enc | encReads | shows | reset => exact ⟨rfl, rfl⟩

/-! The error code and the idle state (R42, R49). -/

/-- A transition of the decoder leaves the idle state, and it writes the error code only where it enters `D_ERR`. -/
theorem Dec.Moves.err_idle {rule : Config.TextRule} {d d' : Dec} (h : d.Moves rule d') :
    d'.st ≠ .idle ∧ (d'.err = d.err ∨ (d.st ≠ .err ∧ d'.st = .err)) := by
  cases h with
  | start | byte0 | short | ext16 | lenHi | lenLo => exact ⟨nofun, .inl rfl⟩
  | unmasked hst | ext64 hst => exact ⟨nofun, .inr ⟨by simp [hst], rfl⟩⟩
  | fail hst => exact ⟨nofun, .inr ⟨fun herr => by simp [herr] at hst, rfl⟩⟩
  | key b hst =>
    obtain ⟨-, hd⟩ | ⟨-, -, hd⟩ | ⟨-, -, hd⟩ := d.takeKey_cases b
    · rw [hd]
      exact ⟨by simp [hst], .inl rfl⟩
    all_goals
      rw [hd]
      exact ⟨nofun, .inl rfl⟩
  | payload b hst =>
    obtain ⟨-, hd⟩ | ⟨-, hd⟩ := d.takePayload_cases b
    · rw [hd]
      exact ⟨nofun, .inl rfl⟩
    · rw [hd]
      exact ⟨by simp [Dec.storePayload, hst], .inl rfl⟩
  | check hst =>
    obtain ⟨-, hd⟩ | ⟨-, hd⟩ := d.check_cases rule
    · rw [hd]
      exact ⟨nofun, .inl rfl⟩
    · rw [hd]
      exact ⟨nofun, .inr ⟨by simp [hst], rfl⟩⟩

theorem Enc.startShort_st (n : Nat) (e : Enc) : (e.startShort n).st = if n = 0 then .done else .pay := rfl

/-- A transition of the encoder leaves the idle state, and it writes the error code only where it enters `E_ERR`. -/
theorem Enc.Moves.err_idle {max : Config.EncMax} {e e' : Enc} (h : e.Moves max e') :
    e'.st ≠ .idle ∧ (e'.err = e.err ∨ (e.st ≠ .err ∧ e'.st = .err)) := by
  cases h with
  | short n hst hn =>
    refine ⟨?_, .inl rfl⟩
    rw [Enc.startShort_st]
    split_ifs <;> nofun
  | ext16 => exact ⟨nofun, .inl rfl⟩
  | refuse hst => exact ⟨nofun, .inr ⟨by rcases hst with h | h <;> simp [h], rfl⟩⟩
  | payload b hst =>
    obtain ⟨-, he⟩ | ⟨-, he⟩ := e.takePayload_cases b
    · rw [he]
      exact ⟨nofun, .inl rfl⟩
    · rw [he]
      exact ⟨by simp [Enc.storePayload, hst], .inl rfl⟩

/-- Settles O53: by what the row does. -/
theorem errorCodeIsWrittenByErrorAndResetOnly : Obligations.ErrorCodeIsWrittenByErrorAndResetOnly := by
  intro i s t hi h
  cases exec_moves h with
  | unchanged | shows => exact ⟨id, id, .inl rfl, .inl rfl⟩
  | dec d hd =>
    obtain ⟨hidle, herr⟩ := hd.err_idle
    exact ⟨fun h => absurd h hidle, id, herr, .inl rfl⟩
  | enc e he =>
    obtain ⟨hidle, herr⟩ := he.err_idle
    exact ⟨id, fun h => absurd h hidle, .inl rfl, herr⟩
  | decReads a =>
    obtain ⟨hst, -, -, -, -, -, -, herr, -⟩ := s.dec.readByte_sameDecRegs a
    exact ⟨hst.symm.trans, id, .inl herr, .inl rfl⟩
  | encReads a =>
    obtain ⟨hst, -, -, -, -, herr, -⟩ := s.enc.readByte_sameEncRegs a
    exact ⟨id, hst.symm.trans, .inl rfl, .inl herr⟩
  | reset hr => exact absurd hr hi

/-! The error entry (R230). -/

/-- What a transition of the decoder that enters `D_ERR` writes. -/
theorem Dec.Moves.enters_err {rule : Config.TextRule} {d d' : Dec} (h : d.Moves rule d') (herr : d'.st = .err) :
    d' = { d with st := .err, err := d'.err, mark := d'.mark } ∧
    d'.err ∈ [ErrCode.unsupportedFrameSize, .invalidEncoding, .transportFailure, .unmaskedFrame] ∧
    d'.mark = (if d'.err = .unsupportedFrameSize then 127 else d.mark) := by
  cases h with
  | start | byte0 | short | ext16 | lenHi | lenLo => cases herr
  | unmasked | ext64 | fail => exact ⟨rfl, by simp, rfl⟩
  | key b hst =>
    obtain ⟨-, hd⟩ | ⟨-, -, hd⟩ | ⟨-, -, hd⟩ := d.takeKey_cases b
    · simp [hd, hst] at herr
    all_goals
      rw [hd] at herr
      cases herr
  | payload b hst =>
    obtain ⟨-, hd⟩ | ⟨-, hd⟩ := d.takePayload_cases b
    · rw [hd] at herr
      cases herr
    · simp [hd, Dec.storePayload, hst] at herr
  | check hst =>
    obtain ⟨-, hd⟩ | ⟨-, hd⟩ := d.check_cases rule
    · rw [hd] at herr
      cases herr
    · rw [hd]
      exact ⟨rfl, by simp, rfl⟩

/-- The one transition of the encoder that enters `E_ERR` is the refusal. -/
theorem Enc.Moves.enters_err {max : Config.EncMax} {e e' : Enc} (h : e.Moves max e') (herr : e'.st = .err) :
    e' = { e with st := .err, err := .messageTooLarge, tot := 0, buf := [] } := by
  cases h with
  | short n =>
    rw [Enc.startShort_st] at herr
    split_ifs at herr
  | ext16 => cases herr
  | refuse => rfl
  | payload b hst =>
    obtain ⟨-, he⟩ | ⟨-, he⟩ := e.takePayload_cases b
    · rw [he] at herr
      cases herr
    · simp [he, Enc.storePayload, hst] at herr

theorem decStatus_of_err {s : State} (h : s.dec.st = .err) :
    s.decErr = true ∧ s.fatal = true ∧ s.rxReady = false ∧ s.decBusy = false := by
  simp [State.decErr, State.fatal, State.rxReady, State.decBusy, h]

theorem encStatus_of_err {s : State} (h : s.enc.st = .err) :
    s.encErr = true ∧ s.fatal = true ∧ s.plReady = false ∧ s.encBusy = false := by
  simp [State.encErr, State.fatal, State.plReady, State.encBusy, h]

/-- A row that takes the decoder into `D_ERR` is one of its transitions. -/
theorem RowMoves.dec_enters_err {i : Instr} {s t : State} (h : RowMoves i s t) (hne : s.dec.st ≠ .err) (herr : t.dec.st = .err) :
    s.dec.Moves s.par.text t.dec ∧ t = s.withDec t.dec := by
  cases h with
  | dec d hd => exact ⟨hd, rfl⟩
  | unchanged | enc | encReads | shows => exact absurd herr hne
  | decReads a => exact absurd ((s.dec.readByte_sameDecRegs a).1.symm.trans herr) hne
  | reset => cases herr

/-- A row that takes the encoder into `E_ERR` is one of its transitions. -/
theorem RowMoves.enc_enters_err {i : Instr} {s t : State} (h : RowMoves i s t) (hne : s.enc.st ≠ .err) (herr : t.enc.st = .err) :
    s.enc.Moves s.par.encMax t.enc ∧ t = s.withEnc t.enc := by
  cases h with
  | enc e he => exact ⟨he, rfl⟩
  | unchanged | dec | decReads | shows => exact absurd herr hne
  | encReads a => exact absurd ((s.enc.readByte_sameEncRegs a).1.symm.trans herr) hne
  | reset => cases herr

/-- Settles O51: the transitions that enter an error state. -/
theorem errorEntryWritesTheseRegisters : Obligations.ErrorEntryWritesTheseRegisters := by
  intro i s t h
  have hrow := exec_moves h
  refine ⟨fun hne herr => ?_, fun hne herr => ?_⟩
  · obtain ⟨hmove, ht⟩ := hrow.dec_enters_err hne herr
    obtain ⟨hd, hcode, hmark⟩ := hmove.enters_err herr
    exact ⟨ht.trans (congrArg s.withDec hd), hcode, hmark, decStatus_of_err herr⟩
  · obtain ⟨hmove, ht⟩ := hrow.enc_enters_err hne herr
    exact ⟨ht.trans (congrArg s.withEnc (hmove.enters_err herr)), encStatus_of_err herr⟩

end Sys2Proof.Machine
end

section
/-! PROOFS. The invariant (10_state sections 4, 5 and 7): what it asks of a unit by its state, that every transition keeps it, and
what holds of the rows and the frame position under it. -/

namespace Sys2Proof.Machine

/-! The decoder unit: what the invariant asks by state. -/

theorem Dec.Inv.err_none {rule : Config.TextRule} {d : Dec} (h : d.Inv rule) (hst : d.st ≠ .err) : d.err = .none :=
  h.errIff.mpr hst

/-- While the unit is idle or reads the first header bytes, nothing is listed. -/
theorem Dec.Inv.of_header {rule : Config.TextRule} {d : Dec}
    (hst : d.st = .idle ∨ d.st = .b0 ∨ d.st = .b1 ∨ d.st = .xh ∨ d.st = .xl) (herr : d.err = .none) (hbuf : d.buf = [])
    (hext : d.st = .xh ∨ d.st = .xl → d.mark.toNat = 126) : d.Inv rule := by
  rcases hst with hst | hst | hst | hst | hst
  all_goals constructor
  all_goals simp_all [Memory.wf, Memory.risesFrom]

theorem Dec.Inv.of_key {rule : Config.TextRule} {d : Dec} (hst : d.st = .key) (herr : d.err = .none) (hbuf : d.buf = [])
    (hmark : d.mark.toNat ≤ 126 ∧ (d.mark.toNat ≤ 125 → d.len.toNat = d.mark.toNat)) : d.Inv rule := by
  constructor
  all_goals simp_all [Memory.wf, Memory.risesFrom]

/-- From the payload on, the listed bytes are those below `DEC_IDX`. -/
theorem Dec.Inv.of_payload {rule : Config.TextRule} {d : Dec} (hst : d.st = .pay ∨ d.st = .chk ∨ d.st = .done)
    (herr : d.err = .none) (hwf : Memory.wf d.buf = true) (hfilled : d.buf.map Prod.fst = List.range d.idx.toNat)
    (hmark : d.mark.toNat ≤ 126 ∧ (d.mark.toNat ≤ 125 → d.len.toNat = d.mark.toNat))
    (hidx : if d.st = .pay then d.idx.toNat < d.len.toNat else d.idx.toNat = d.len.toNat)
    (htext : d.st = .done → utf8Valid rule d.payload = true) : d.Inv rule where
  bufWf := hwf
  bufRange c hc := by
    have hlen : d.len.toNat < 65536 := d.len.isLt
    have hlt : c.1 < d.idx.toNat := by
      rw [← List.mem_range, ← hfilled]
      exact List.mem_map_of_mem hc
    show c.1 < 65535
    split at hidx <;> omega
  errIff := by rcases hst with hst | hst | hst <;> simp [hst, herr]
  errKind := by simp [herr]
  ext := by rcases hst with hst | hst | hst <;> simp [hst]
  marker _ := hmark
  fresh := by rcases hst with hst | hst | hst <;> simp [hst]
  pay h := by rwa [if_pos h] at hidx
  full h := by
    rwa [if_neg] at hidx
    rcases h with h | h <;> simp [h]
  filled _ := hfilled
  text := htext

/-- An error keeps the buffer. -/
theorem Dec.Inv.of_err {rule : Config.TextRule} {d d' : Dec} (h : d.Inv rule) (hst : d'.st = .err) (hbuf : d'.buf = d.buf)
    (herr : d'.err ≠ .none) (hkind : d'.err ≠ .messageTooLarge) : d'.Inv rule where
  bufWf := hbuf ▸ h.bufWf
  bufRange := hbuf ▸ h.bufRange
  errIff := by simp [hst, herr]
  errKind := hkind
  ext := by simp [hst]
  marker := by simp [hst]
  fresh := by simp [hst]
  pay := by simp [hst]
  full := by simp [hst]
  filled := by simp [hst]
  text := by simp [hst]

/-! Every transition of the decoder keeps the invariant. -/

/-- A write past all listed bytes lists one more. -/
theorem Memory.write_listed {m : Memory} {k : Nat} (v : Byte) (h : m.map Prod.fst = List.range k) :
    (Memory.write m k v).map Prod.fst = List.range (k + 1) := by
  have hlt : ∀ c ∈ m, c.1 < k := fun c hc => by
    rw [← List.mem_range, ← h]
    exact List.mem_map_of_mem hc
  rw [Memory.write_append v hlt, List.map_append, h, List.range_succ]
  rfl

theorem Dec.Inv.takeKey {rule : Config.TextRule} {d : Dec} (h : d.Inv rule) (hst : d.st = .key) (b : Byte) :
    (d.takeKey b).Inv rule := by
  have herr := h.err_none (by simp [hst])
  have hbuf : d.buf = [] := h.fresh (by simp [hst])
  have hmark := h.marker (.inl hst)
  obtain ⟨-, hd⟩ | ⟨-, hlen, hd⟩ | ⟨-, hlen, hd⟩ := d.takeKey_cases b
  all_goals rw [hd]
  · exact .of_key hst herr hbuf hmark
  · exact .of_payload (.inr (.inl rfl)) herr h.bufWf (congrArg (List.map Prod.fst) hbuf) hmark
      (congrArg BitVec.toNat hlen).symm nofun
  · exact .of_payload (.inl rfl) herr h.bufWf (congrArg (List.map Prod.fst) hbuf) hmark
      (Nat.pos_of_ne_zero fun h0 => hlen (BitVec.eq_of_toNat_eq h0)) nofun

theorem Dec.Inv.takePayload {rule : Config.TextRule} {d : Dec} (h : d.Inv rule) (hst : d.st = .pay) (b : Byte) :
    (d.takePayload b).Inv rule := by
  have herr := h.err_none (by simp [hst])
  have hidx := h.pay hst
  have hsucc := Dec.idx_succ_toNat hidx
  have hwf := Memory.write_wf d.idx.toNat (unmask1 b d.key d.idx.toNat) h.bufWf
  have hfilled := Memory.write_listed (unmask1 b d.key d.idx.toNat) (h.filled (.inl hst))
  rw [← hsucc] at hfilled
  obtain ⟨hlast, hd⟩ | ⟨hnot, hd⟩ := d.takePayload_cases b
  all_goals rw [hd]
  · exact .of_payload (.inr (.inl rfl)) herr hwf hfilled (h.marker (.inr (.inl hst))) (congrArg BitVec.toNat hlast) nofun
  · refine .of_payload (.inl hst) herr hwf hfilled (h.marker (.inr (.inl hst))) ?_ fun hdone => absurd (hst.symm.trans hdone) nofun
    have hpay : (d.storePayload b).st = .pay := hst
    rw [if_pos hpay]
    have hne : (d.idx + 1).toNat ≠ d.len.toNat := fun he => hnot (BitVec.eq_of_toNat_eq he)
    show (d.idx + 1).toNat < d.len.toNat
    omega

theorem Dec.Inv.check {rule : Config.TextRule} {d : Dec} (h : d.Inv rule) (hst : d.st = .chk) : (d.check rule).Inv rule := by
  obtain ⟨hv, hd⟩ | ⟨-, hd⟩ := d.check_cases rule
  all_goals rw [hd]
  · exact .of_payload (.inr (.inr rfl)) (h.err_none (by simp [hst])) h.bufWf (h.filled (.inr (.inl hst)))
      (h.marker (.inr (.inr (.inl hst)))) (h.full (.inl hst)) fun _ => hv
  · exact h.of_err rfl rfl nofun nofun

theorem Dec.Moves.keeps_inv {rule : Config.TextRule} {d d' : Dec} (hmove : d.Moves rule d') (h : d.Inv rule) : d'.Inv rule := by
  cases hmove with
  | start hst => exact .of_header (.inr (.inl rfl)) (h.err_none (by rcases hst with hst | hst <;> simp [hst])) rfl nofun
  | byte0 hst => exact .of_header (.inr (.inr (.inl rfl))) (h.err_none (by simp [hst])) (h.fresh (.inl hst)) nofun
  | unmasked | ext64 | fail => exact h.of_err rfl rfl nofun nofun
  | short m hst hm =>
    exact .of_key rfl (h.err_none (by simp [hst])) (h.fresh (by simp [hst])) ⟨by simp; omega, fun _ => d.takeShort_len m⟩
  | ext16 hst =>
    exact .of_header (.inr (.inr (.inr (.inl rfl)))) (h.err_none (by simp [hst])) (h.fresh (by simp [hst])) fun _ => rfl
  | lenHi b hst =>
    exact .of_header (.inr (.inr (.inr (.inr rfl)))) (h.err_none (by simp [hst])) (h.fresh (by simp [hst]))
      fun _ => h.ext (.inl hst)
  | lenLo b hst =>
    have hmark : d.mark.toNat = 126 := h.ext (.inr hst)
    exact .of_key rfl (h.err_none (by simp [hst])) (h.fresh (by simp [hst])) ⟨hmark.le, fun hle => by simp [hmark] at hle⟩
  | key b hst => exact h.takeKey hst b
  | payload b hst => exact h.takePayload hst b
  | check hst => exact h.check hst

/-- The model's own fields are not in the invariant. -/
theorem Dec.Inv.readByte {rule : Config.TextRule} {d : Dec} (h : d.Inv rule) (i : Nat) : (d.readByte i).Inv rule := by
  obtain ⟨-, hd⟩ | ⟨-, hd⟩ := d.readByte_cases i
  all_goals
    rw [hd]
    exact ⟨h.bufWf, h.bufRange, h.errIff, h.errKind, h.ext, h.marker, h.fresh, h.pay, h.full, h.filled, h.text⟩

theorem Dec.restart_inv (rule : Config.TextRule) (d : Dec) : d.restart.Inv rule := .of_header (.inl rfl) rfl rfl nofun

/-! The encoder unit. -/

theorem Enc.Inv.err_none {max : Config.EncMax} {e : Enc} (h : e.Inv max) (hst : e.st ≠ .err) : e.err = .none :=
  h.errIff.mpr hst

/-- Outside a frame no byte is listed. -/
theorem Enc.Inv.of_no_frame {max : Config.EncMax} {e : Enc}
    (hst : e.st = .idle ∧ e.err = .none ∨ e.st = .err ∧ e.err = .messageTooLarge) (htot : e.tot = 0) (hbuf : e.buf = []) :
    e.Inv max := by
  rcases hst with ⟨hst, herr⟩ | ⟨hst, herr⟩
  all_goals constructor
  all_goals simp_all [Memory.wf, Memory.risesFrom]

/-- In a frame the listed bytes are the header and the payload so far. -/
theorem Enc.Inv.of_frame {max : Config.EncMax} {e : Enc} (hst : e.st = .pay ∨ e.st = .done) (herr : e.err = .none)
    (hwf : Memory.wf e.buf = true) (hfilled : e.buf.map Prod.fst = List.range (e.hlen.toNat + e.idx.toNat))
    (hlen : e.n.toNat ≤ max.val) (hhlen : e.hlen.toNat = if e.n.toNat ≤ 125 then 2 else 4)
    (hidx : if e.st = .pay then e.idx.toNat < e.n.toNat else e.idx.toNat = e.n.toNat)
    (htot : e.tot.toNat = if e.st = .pay then 0 else e.hlen.toNat + e.n.toNat)
    (hhead : Memory.read e.buf 0 = some 0x81 ∧ Memory.read e.buf 1 = some (if e.n.toNat ≤ 125 then lo8 e.n.toNat else 0x7E))
    (hext : 125 < e.n.toNat → Memory.read e.buf 2 = some (hi8 e.n.toNat) ∧ Memory.read e.buf 3 = some (lo8 e.n.toNat)) :
    e.Inv max where
  bufWf := hwf
  bufRange c hc := by
    have hlt : c.1 < e.hlen.toNat + e.idx.toNat := by
      rw [← List.mem_range, ← hfilled]
      exact List.mem_map_of_mem hc
    have hfour : e.hlen.toNat ≤ 4 := by rw [hhlen]; split <;> omega
    rw [Config.encCap]
    split at hidx <;> omega
  errIff := by rcases hst with hst | hst <;> simp [hst, herr]
  errKind := .inl herr
  tot h := by
    obtain hst := hst.resolve_right h
    rw [if_pos hst] at htot
    exact BitVec.eq_of_toNat_eq htot
  totDone h := by rwa [if_neg (by simp [h])] at htot
  len _ := hlen
  hlen _ := hhlen
  pay h := by rwa [if_pos h] at hidx
  full h := by rwa [if_neg (by simp [h])] at hidx
  filled _ := hfilled
  head _ := hhead
  headExt _ := hext

theorem Enc.startShort_inv {max : Config.EncMax} {e : Enc} {n : Nat} (herr : e.err = .none) (hn : n ≤ 125) :
    (e.startShort n).Inv max := by
  obtain ⟨hmax, -⟩ := encMax_bounds max
  have hlen : (e.startShort n).n.toNat = n := toNat_ofNat_of_le_encMax (max := max) (by omega)
  have hhlen : (e.startShort n).hlen.toNat = if (e.startShort n).n.toNat ≤ 125 then 2 else 4 := by
    rw [hlen, if_pos hn]
    rfl
  have hhead : Memory.read (e.startShort n).buf 1 =
      some (if (e.startShort n).n.toNat ≤ 125 then lo8 (e.startShort n).n.toNat else 0x7E) := by
    rw [hlen, if_pos hn]
    rfl
  obtain rfl | hpos := Nat.eq_zero_or_pos n
  · exact .of_frame (.inr rfl) herr rfl rfl (by omega) hhlen rfl rfl ⟨rfl, hhead⟩ (by omega)
  · have hst : (e.startShort n).st = .pay := if_neg hpos.ne'
    refine .of_frame (.inl hst) herr rfl rfl (by omega) hhlen ?_ ?_ ⟨rfl, hhead⟩ (by omega)
    · rw [if_pos hst, hlen]
      exact hpos
    · rw [if_pos hst]
      exact congrArg BitVec.toNat (if_neg hpos.ne')

theorem Enc.startExt16_inv {max : Config.EncMax} {e : Enc} {n : Nat} (herr : e.err = .none) (hn : 125 < n) (hmax : n ≤ max.val) :
    (e.startExt16 n).Inv max := by
  have hlen : (e.startExt16 n).n.toNat = n := toNat_ofNat_of_le_encMax hmax
  have hnot : ¬n ≤ 125 := Nat.not_le.mpr hn
  refine .of_frame (.inl rfl) herr rfl (e.startExt16_listed n) (hlen.trans_le hmax) (by rw [hlen, if_neg hnot]; rfl) ?_ rfl
    ⟨rfl, by rw [hlen, if_neg hnot]; rfl⟩ fun _ => by rw [hlen]; exact ⟨rfl, rfl⟩
  show 0 < (e.startExt16 n).n.toNat
  omega

theorem Enc.Inv.takePayload {max : Config.EncMax} {e : Enc} (h : e.Inv max) (hst : e.st = .pay) (b : Byte) :
    (e.takePayload b).Inv max := by
  have herr := h.err_none (by simp [hst])
  have hidx := h.pay hst
  have hsucc := Enc.idx_succ_toNat hidx
  have hlen := h.len (.inl hst)
  have hhlen := h.hlen (.inl hst)
  have hwf := Memory.write_wf e.payAddr b h.bufWf
  have hfilled := Memory.write_listed b (h.filled (.inl hst))
  rw [Nat.add_assoc, ← hsucc] at hfilled
  have hkept (a : Nat) (ha : a < e.hlen.toNat) : Memory.read (Memory.write e.buf e.payAddr b) a = Memory.read e.buf a :=
    Memory.read_write_other _ _ (by rw [Enc.payAddr]; omega)
  have htwo : 2 ≤ e.hlen.toNat ∧ e.hlen.toNat ≤ 4 := by rw [hhlen]; split <;> omega
  have hhead := h.head (.inl hst)
  rw [← hkept 0 (by omega), ← hkept 1 (by omega)] at hhead
  have hext (hn : 125 < e.n.toNat) : Memory.read (Memory.write e.buf e.payAddr b) 2 = some (hi8 e.n.toNat) ∧
      Memory.read (Memory.write e.buf e.payAddr b) 3 = some (lo8 e.n.toNat) := by
    rw [if_neg (by simpa using hn)] at hhlen
    rw [hkept 2 (by omega), hkept 3 (by omega)]
    exact h.headExt (.inl hst) hn
  obtain ⟨hlast, he⟩ | ⟨hnot, he⟩ := e.takePayload_cases b
  all_goals rw [he]
  · exact .of_frame (.inr rfl) herr hwf hfilled hlen hhlen (congrArg BitVec.toNat hlast)
      (tot_toNat (max := max) (by rw [Config.encCap]; omega)) hhead hext
  · have hpay : (e.storePayload b).st = .pay := hst
    refine .of_frame (.inl hst) herr hwf hfilled hlen hhlen ?_ ?_ hhead hext
    · rw [if_pos hpay]
      have hne : (e.idx + 1).toNat ≠ e.n.toNat := fun he => hnot (BitVec.eq_of_toNat_eq he)
      show (e.idx + 1).toNat < e.n.toNat
      omega
    · rw [if_pos hpay]
      exact congrArg BitVec.toNat (h.tot (by simp [hst]))

theorem Enc.Moves.keeps_inv {max : Config.EncMax} {e e' : Enc} (hmove : e.Moves max e') (h : e.Inv max) : e'.Inv max := by
  have hnone (hst : e.st = .idle ∨ e.st = .done) : e.err = .none := h.err_none (by rcases hst with hst | hst <;> simp [hst])
  cases hmove with
  | short n hst hn => exact Enc.startShort_inv (hnone hst) hn
  | ext16 n hst hn hmax => exact Enc.startExt16_inv (hnone hst) hn hmax
  | refuse => exact .of_no_frame (.inr ⟨rfl, rfl⟩) rfl rfl
  | payload b hst => exact h.takePayload hst b

/-- The model's own fields are not in the invariant. -/
theorem Enc.Inv.readByte {max : Config.EncMax} {e : Enc} (h : e.Inv max) (i : Nat) : (e.readByte i).Inv max := by
  obtain ⟨-, he⟩ | ⟨-, he⟩ := e.readByte_cases i
  all_goals
    rw [he]
    exact ⟨h.bufWf, h.bufRange, h.errIff, h.errKind, h.tot, h.totDone, h.len, h.hlen, h.pay, h.full, h.filled, h.head,
      h.headExt⟩

theorem Enc.restart_inv (max : Config.EncMax) (e : Enc) : e.restart.Inv max := .of_no_frame (.inl ⟨rfl, rfl⟩) rfl rfl

/-! Rows and steps. -/

theorem RowMoves.keeps_inv {i : Instr} {s t : State} (hrow : RowMoves i s t) (h : s.Inv) : t.Inv := by
  cases hrow with
  | unchanged => exact h
  | shows => exact ⟨h.dec, h.enc⟩
  | dec d hd => exact ⟨hd.keeps_inv h.dec, h.enc⟩
  | decReads a => exact ⟨h.dec.readByte a, h.enc⟩
  | enc e he => exact ⟨h.dec, he.keeps_inv h.enc⟩
  | encReads a => exact ⟨h.dec, h.enc.readByte a⟩
  | reset => exact ⟨Dec.restart_inv _ _, Enc.restart_inv _ _⟩

/-- The invariant speaks of the units and the parameters only. -/
theorem State.Inv.of_units {s t : State} (h : s.Inv) (hdec : t.dec = s.dec) (henc : t.enc = s.enc) (hpar : t.par = s.par) :
    t.Inv := ⟨hdec ▸ hpar ▸ h.dec, henc ▸ hpar ▸ h.enc⟩

/-- The state that a fetched row runs in, or that a pass leads to, has the units and parameters of `s`. -/
def Fetched.KeepsUnits (s : State) : Fetched → Prop
  | .run _ t => t.dec = s.dec ∧ t.enc = s.enc ∧ t.par = s.par
  | .pass t => t.dec = s.dec ∧ t.enc = s.enc ∧ t.par = s.par
  | .reject _ => True

theorem fetchPl_keepsUnits (s : State) : (fetchPl s).KeepsUnits s := by
  unfold fetchPl
  split
  · split <;> exact ⟨rfl, rfl, rfl⟩
  · exact ⟨rfl, rfl, rfl⟩

theorem fetchRx_keepsUnits (s : State) : (fetchRx s).KeepsUnits s := by
  unfold fetchRx
  split
  · split
    · split
      · exact ⟨rfl, rfl, rfl⟩
      · exact fetchPl_keepsUnits s
    · exact ⟨rfl, rfl, rfl⟩
  · exact fetchPl_keepsUnits s

theorem fetchFree_keepsUnits (s : State) : (fetchFree s).KeepsUnits s := by
  unfold fetchFree
  split
  · exact ⟨rfl, rfl, rfl⟩
  · exact fetchRx_keepsUnits s

/-- What the machine takes from the environment leaves the units and the parameters alone. -/
theorem fetch_keepsUnits (s : State) : (fetch s).KeepsUnits s := by
  unfold fetch
  split
  · exact fetchFree_keepsUnits s
  · exact ⟨rfl, rfl, rfl⟩
  · exact ⟨rfl, rfl, rfl⟩
  · unfold fetchWire
    split
    · exact ⟨rfl, rfl, rfl⟩
    · trivial
  · exact ⟨rfl, rfl, rfl⟩
  · split
    · exact ⟨rfl, rfl, rfl⟩
    · exact fetchFree_keepsUnits s

/-- Settles O49: a step runs a row or moves the environment on. -/
theorem stepKeepsTheInvariant : Obligations.StepKeepsTheInvariant := by
  intro s t h hstep
  have hfetched := fetch_keepsUnits s
  obtain ⟨i, u, hfetch, hexec⟩ | hpass := step_cases hstep
  · rw [hfetch] at hfetched
    obtain ⟨hdec, henc, hpar⟩ := hfetched
    exact (exec_moves hexec).keeps_inv (h.of_units hdec henc hpar)
  · rw [hpass] at hfetched
    obtain ⟨hdec, henc, hpar⟩ := hfetched
    exact h.of_units hdec henc hpar

/-- DEC.PAY does not fault where a payload byte is due (R72, R151). -/
theorem exec_decPay_of_lt_len {s : State} (b : Byte) (h : s.dec.st = .pay → s.dec.idx.toNat < s.dec.len.toNat) :
    exec (.decPay b) s = decRow (decide (s.dec.st = .pay)) (s.dec.takePayload b) s := by
  have hlen : s.dec.len.toNat < 65536 := s.dec.len.isLt
  refine if_neg fun ⟨hst, hcap⟩ => ?_
  have hidx := h hst
  have hcap : 65535 ≤ s.dec.idx.toNat := hcap
  omega

/-- ENC.PAY does not fault where a payload byte of an accepted length is due (R73, R151). -/
theorem Enc.Inv.payAddr_lt {max : Config.EncMax} {e : Enc} (h : e.Inv max) (hst : e.st = .pay) :
    e.payAddr < Config.encCap max := by
  have hidx := h.pay hst
  have hlen := h.len (.inl hst)
  have hhlen := h.hlen (.inl hst)
  rw [Enc.payAddr, Config.encCap]
  split at hhlen <;> omega

/-- Settles O50: the two rows that can fault do not; every other row answers a state. -/
theorem everyRowRunsUnderTheInvariant : Obligations.EveryRowRunsUnderTheInvariant := by
  intro i s h
  cases i with
  | decPay b => exact ⟨_, exec_decPay_of_lt_len b h.dec.pay⟩
  | encPay b =>
    by_cases hst : s.enc.st = .pay
    · exact ⟨_, exec_encPay b (h.enc.payAddr_lt hst)⟩
    · exact ⟨_, if_neg fun hc => hst hc.1⟩
  | cfB0Any | cfB1Unmasked | cfB1Short | cfB1Ext16 | cfB1Ext64 | sfShort | sfExt16 | sfTooLarge | decInvoke | decB0
  | decB1Unmasked | decB1 | decB1Short | decB1Ext16 | decB1Ext64 | decXh | decXl | decKey | decRxFail | decCheck | decIgnore
  | decRead | encInvoke | encShort | encExt16 | encTooLarge | encIgnore | encRead | reset | maskbit | mark7 | be16 | hi8 | lo8
  | unmask1 | unmask | isInline | isExt16 | isExt64 | fitsShort | fitsExt16 | tooLarge | utf8Valid | decodeFrame
  | encodeMessage => exact ⟨_, rfl⟩

/-- Settles O48: the unit's reset values are those of a restart, in no frame. -/
theorem resetStateMeetsTheInvariant : Obligations.ResetStateMeetsTheInvariant :=
  ⟨rfl, rfl, rfl, rfl, rfl, .of_header (.inl rfl) rfl rfl nofun, .of_no_frame (.inl ⟨rfl, rfl⟩) rfl rfl⟩

end Sys2Proof.Machine
end

section
/-! PROOFS. The events (R19): what an event makes of its unit, as one function per unit, and the transition tables R178 and R201. -/

namespace Sys2Proof.Machine

@[simp] theorem withDec_self (s : State) : s.withDec s.dec = s := rfl
@[simp] theorem withEnc_self (s : State) : s.withEnc s.enc = s := rfl

/-! The decoder unit. -/

/-- The unit after `RxByte(b)`, by the state that selects the row (R161 to R170, R173). -/
def Dec.takeByte (b : Byte) (d : Dec) : Dec :=
  match d.st with
  | .b0 => d.takeByte0
  | .b1 => if maskbit b then d.takeByte1 b else d.takeUnmasked
  | .xh => d.takeLenHi b
  | .xl => d.takeLenLo b
  | .key => d.takeKey b
  | .pay => d.takePayload b
  | .idle => d
  | .chk => d
  | .done => d
  | .err => d

/-- The unit after an event. -/
def Dec.onEvent (rule : Config.TextRule) (e : DecEvent) (d : Dec) : Dec :=
  match e with
  | .invoke => if d.st.accepts then d.start else d
  | .rxByte b => d.takeByte b
  | .rxFail => if d.st.awaiting then d.raise .transportFailure else d
  | .check => if d.st = .chk then d.check rule else d

/-- The event would write `DEC_BUF` past its last index (log entry 16). -/
def Dec.Overruns (d : Dec) : DecEvent → Prop
  | .rxByte _ => d.st = .pay ∧ Config.decCap ≤ d.idx.toNat
  | .invoke => False
  | .rxFail => False
  | .check => False

theorem Dec.takeByte_b0 {d : Dec} (b : Byte) (h : d.st = .b0) : d.takeByte b = d.takeByte0 := by simp [Dec.takeByte, h]

theorem Dec.takeByte_b1 {d : Dec} (b : Byte) (h : d.st = .b1) :
    d.takeByte b = if maskbit b then d.takeByte1 b else d.takeUnmasked := by simp [Dec.takeByte, h]

theorem Dec.takeByte_xh {d : Dec} (b : Byte) (h : d.st = .xh) : d.takeByte b = d.takeLenHi b := by simp [Dec.takeByte, h]

theorem Dec.takeByte_xl {d : Dec} (b : Byte) (h : d.st = .xl) : d.takeByte b = d.takeLenLo b := by simp [Dec.takeByte, h]

theorem Dec.takeByte_key {d : Dec} (b : Byte) (h : d.st = .key) : d.takeByte b = d.takeKey b := by simp [Dec.takeByte, h]

theorem Dec.takeByte_pay {d : Dec} (b : Byte) (h : d.st = .pay) : d.takeByte b = d.takePayload b := by simp [Dec.takeByte, h]

theorem Dec.takeByte_of_not_awaiting {d : Dec} (b : Byte) (h : d.st.awaiting = false) : d.takeByte b = d := by
  cases hst : d.st with
  | b0 | b1 | xh | xl | key | pay => simp [hst, DecSt.awaiting] at h
  | idle | chk | done | err => simp [Dec.takeByte, hst]

theorem Dec.takeByte_unmasked {d : Dec} {b : Byte} (hst : d.st = .b1) (h : b.toNat < 128) : d.takeByte b = d.takeUnmasked := by
  rw [Dec.takeByte_b1 b hst, if_neg fun hm => absurd ((maskbit_iff b).mp hm) (Nat.not_le.mpr h)]

theorem Dec.takeByte_masked {d : Dec} {b : Byte} (hst : d.st = .b1) (h : 128 ≤ b.toNat) : d.takeByte b = d.takeByte1 b := by
  rw [Dec.takeByte_b1 b hst, if_pos ((maskbit_iff b).mpr h)]

theorem Dec.takeByte_short {d : Dec} {b : Byte} (hst : d.st = .b1) (h : 128 ≤ b.toNat) (hm : b.toNat - 128 ≤ 125) :
    d.takeByte b = d.takeShort (mark7 b) := by
  rw [Dec.takeByte_masked hst h, Dec.takeByte1, if_pos (by rwa [isInline_iff, mark7_toNat h])]

theorem Dec.takeByte_ext16 {d : Dec} (hst : d.st = .b1) : d.takeByte 0xFE = d.takeExt16 := Dec.takeByte_masked hst (by decide)

theorem Dec.takeByte_ext64 {d : Dec} (hst : d.st = .b1) : d.takeByte 0xFF = d.takeExt64 := Dec.takeByte_masked hst (by decide)

/-- A byte does what its event's row does, but for the fault. -/
theorem deliver_rxByte {s : State} (b : Byte) (h : s.dec.st = .pay → s.dec.idx.toNat < Config.decCap) :
    deliver (.dec (.rxByte b)) s = .next (s.withDec (s.dec.takeByte b)) := by
  cases hst : s.dec.st with
  | b1 =>
    rw [deliver_rxByte_b1 b hst, Dec.takeByte_b1 b hst]
    cases hm : maskbit b with
    | false => simp [selectByte1, hm, hst]
    | true => rw [exec_selectByte1 s ((maskbit_iff b).mp hm)]; simp [hst, hm]
  | pay => simp [selectDec, selectRxByte, exec_decPay b (h hst), Dec.takeByte, hst]
  | b0 | xh | xl | key | idle | chk | done | err => simp [selectDec, selectRxByte, Dec.takeByte, hst]

/-- The row of a byte where it would be written past the last index (log entry 16). -/
theorem deliver_rxByte_fault {s : State} (b : Byte) (hst : s.dec.st = .pay) (h : Config.decCap ≤ s.dec.idx.toNat) :
    deliver (.dec (.rxByte b)) s = .fault .decBufRange := by
  rw [deliver_dec, selectDec, hst]
  exact if_pos ⟨hst, h⟩

/-- An event that brings no byte faults nowhere. -/
theorem deliver_dec_of_no_byte {e : DecEvent} (s : State) (he : ∀ b, e ≠ .rxByte b) :
    deliver (.dec e) s = .next (s.withDec (s.dec.onEvent s.par.text e)) := by
  cases e with
  | rxByte b => exact absurd rfl (he b)
  | invoke =>
    cases ha : s.dec.st.accepts with
    | true => simp [selectDec, Dec.onEvent, ha]
    | false => simp [selectDec, Dec.onEvent, ha]
  | rxFail =>
    cases ha : s.dec.st.awaiting with
    | true => simp [selectDec, Dec.onEvent, ha]
    | false => simp [selectDec, Dec.onEvent, ha]
  | check =>
    by_cases hst : s.dec.st = .chk
    · simp [selectDec, Dec.onEvent, hst]
    · simp [selectDec, Dec.onEvent, hst]

theorem Dec.not_overruns_of_no_byte {e : DecEvent} (d : Dec) (he : ∀ b, e ≠ .rxByte b) : ¬d.Overruns e := by
  cases e with
  | rxByte b => exact absurd rfl (he b)
  | invoke | rxFail | check => exact id

/-- A delivered event replaces the decoder unit, or overruns the buffer. -/
theorem deliver_dec_iff {e : DecEvent} {s t : State} :
    deliver (.dec e) s = .next t ↔ ¬s.dec.Overruns e ∧ t = s.withDec (s.dec.onEvent s.par.text e) := by
  by_cases he : ∃ b, e = .rxByte b
  · obtain ⟨b, rfl⟩ := he
    by_cases h : s.dec.st = .pay ∧ Config.decCap ≤ s.dec.idx.toNat
    · rw [deliver_rxByte_fault b h.1 h.2]
      exact ⟨nofun, fun ht => absurd h ht.1⟩
    · rw [deliver_rxByte b fun hst => Nat.not_le.mp fun hcap => h ⟨hst, hcap⟩, Host.Outcome.next.injEq]
      exact ⟨fun ht => ⟨h, ht.symm⟩, fun ht => ht.2.symm⟩
  · have he : ∀ b, e ≠ .rxByte b := fun b hb => he ⟨b, hb⟩
    rw [deliver_dec_of_no_byte s he, Host.Outcome.next.injEq]
    exact ⟨fun ht => ⟨s.dec.not_overruns_of_no_byte he, ht.symm⟩, fun ht => ht.2.symm⟩

/-! The encoder unit. -/

/-- The unit after an event (R190 to R195). -/
def Enc.onEvent (max : Config.EncMax) (e : EncEvent) (u : Enc) : Enc :=
  match e with
  | .invoke n => if u.st.accepts then u.invoke max n else u
  | .plByte b => if u.st = .pay then u.takePayload b else u

/-- The event would write `ENC_BUF` past its last index (log entry 16). -/
def Enc.Overruns (max : Config.EncMax) (u : Enc) : EncEvent → Prop
  | .plByte _ => u.st = .pay ∧ Config.encCap max ≤ u.payAddr
  | .invoke _ => False

theorem deliver_plByte {s : State} (b : Byte) (h : s.enc.st = .pay → s.enc.payAddr < Config.encCap s.par.encMax) :
    deliver (.enc (.plByte b)) s = .next (s.withEnc (s.enc.onEvent s.par.encMax (.plByte b))) := by
  by_cases hst : s.enc.st = .pay
  · simp [selectEnc, Enc.onEvent, hst, exec_encPay b (h hst)]
  · simp [selectEnc, Enc.onEvent, hst]

theorem deliver_plByte_fault {s : State} (b : Byte) (hst : s.enc.st = .pay) (h : Config.encCap s.par.encMax ≤ s.enc.payAddr) :
    deliver (.enc (.plByte b)) s = .fault .encBufRange := by
  rw [deliver_enc, selectEnc, hst]
  exact if_pos ⟨hst, h⟩

theorem deliver_invoke_next (n : Nat) (s : State) :
    deliver (.enc (.invoke n)) s = .next (s.withEnc (s.enc.onEvent s.par.encMax (.invoke n))) := by
  rw [deliver_invoke, exec_encInvoke, Enc.onEvent]
  cases s.enc.st.accepts <;> rfl

/-- A delivered event replaces the encoder unit, or overruns the buffer. -/
theorem deliver_enc_iff {e : EncEvent} {s t : State} :
    deliver (.enc e) s = .next t ↔ ¬s.enc.Overruns s.par.encMax e ∧ t = s.withEnc (s.enc.onEvent s.par.encMax e) := by
  cases e with
  | invoke n =>
    rw [deliver_invoke_next, Host.Outcome.next.injEq]
    exact ⟨fun ht => ⟨id, ht.symm⟩, fun ht => ht.2.symm⟩
  | plByte b =>
    by_cases h : s.enc.st = .pay ∧ Config.encCap s.par.encMax ≤ s.enc.payAddr
    · rw [deliver_plByte_fault b h.1 h.2]
      exact ⟨nofun, fun ht => absurd h ht.1⟩
    · rw [deliver_plByte b fun hst => Nat.not_le.mp fun hcap => h ⟨hst, hcap⟩, Host.Outcome.next.injEq]
      exact ⟨fun ht => ⟨h, ht.symm⟩, fun ht => ht.2.symm⟩

/-! The two units (R83 d, R234, R243). -/

/-- Settles O54: an event replaces one unit; `fatal` is its own definition. -/
theorem unitsAreSeparate : Obligations.UnitsAreSeparate := by
  refine ⟨fun e s t h => ?_, fun e s t h => ?_, fun s => rfl⟩
  · obtain ⟨-, rfl⟩ := deliver_dec_iff.mp h
    exact onlyDec_withDec _ _
  · obtain ⟨-, rfl⟩ := deliver_enc_iff.mp h
    exact onlyEnc_withEnc _ _

/-- Settles O55: each event reads its own unit and the parameters, and replaces its own unit. -/
theorem decoderAndEncoderEventsCommute : Obligations.DecoderAndEncoderEventsCommute := by
  intro d e s t u ht hu
  obtain ⟨hd, rfl⟩ := deliver_dec_iff.mp ht
  obtain ⟨he, rfl⟩ := deliver_enc_iff.mp hu
  exact ⟨(s.withDec (s.dec.onEvent s.par.text d)).withEnc (s.enc.onEvent s.par.encMax e),
    deliver_enc_iff.mpr ⟨he, rfl⟩, deliver_dec_iff.mpr ⟨hd, rfl⟩⟩

/-! The transition tables (41_frame_decoder section 8, 42_frame_encoder section 6). -/

theorem Dec.takeByte_b1_st {d : Dec} (b : Byte) (h : d.st = .b1) : (d.takeByte b).st =
    if b.toNat ≤ 0x7F then .err else if b.toNat ≤ 0xFD then .key else if b.toNat = 0xFE then .xh else .err := by
  obtain hb | ⟨hb, hm⟩ | rfl | rfl := byte1_classes b
  · rw [Dec.takeByte_unmasked h hb, if_pos (by omega)]
    rfl
  · rw [Dec.takeByte_short h hb hm, if_neg (by omega), if_pos (by omega)]
    rfl
  · rw [Dec.takeByte_ext16 h]
    rfl
  · rw [Dec.takeByte_ext64 h]
    rfl

theorem Dec.takeKey_st {d : Dec} (b : Byte) (h : d.st = .key) :
    (d.takeKey b).st = if d.kidx.toNat < 3 then .key else if d.len.toNat = 0 then .chk else .pay := by
  have hlen0 : d.len = 0 ↔ d.len.toNat = 0 := BitVec.toNat_inj.symm
  obtain ⟨hk, hd⟩ | ⟨hk, hl, hd⟩ | ⟨hk, hl, hd⟩ := d.takeKey_cases b
  · rw [hd, if_pos hk]
    exact h
  · rw [hd, if_neg (by omega), if_pos (hlen0.mp hl)]
    rfl
  · rw [hd, if_neg (by omega), if_neg (hl ∘ hlen0.mpr)]
    rfl

/-- Below `DEC_LEN` the payload byte is the last exactly where its index is `DEC_LEN - 1`. -/
theorem Dec.idx_succ_eq_len_iff {d : Dec} (h : d.idx.toNat < d.len.toNat) :
    d.idx + 1 = d.len ↔ d.idx.toNat + 1 = d.len.toNat := by
  rw [← BitVec.toNat_inj, Dec.idx_succ_toNat h]

theorem Enc.idx_succ_eq_n_iff {e : Enc} (h : e.idx.toNat < e.n.toNat) : e.idx + 1 = e.n ↔ e.idx.toNat + 1 = e.n.toNat := by
  rw [← BitVec.toNat_inj, Enc.idx_succ_toNat h]

theorem Dec.takePayload_st {d : Dec} (b : Byte) (h : d.st = .pay) (hidx : d.idx.toNat < d.len.toNat) :
    (d.takePayload b).st = if d.idx.toNat + 1 < d.len.toNat then .pay else .chk := by
  obtain ⟨hlast, hd⟩ | ⟨hnot, hd⟩ := d.takePayload_cases b
  · rw [Dec.idx_succ_eq_len_iff hidx] at hlast
    rw [hd, if_neg (by omega)]
    rfl
  · rw [ne_eq, Dec.idx_succ_eq_len_iff hidx] at hnot
    rw [hd, if_pos (by omega)]
    exact h

theorem Dec.check_st (rule : Config.TextRule) (d : Dec) :
    (d.check rule).st = if utf8Valid rule d.payload = true then .done else .err := by
  obtain ⟨hv, hd⟩ | ⟨hv, hd⟩ := d.check_cases rule
  · rw [hd, if_pos hv]
  · rw [hd, hv]
    rfl

/-- Settles O32: the state of the unit's successor, by event and state. -/
theorem decoderTransitionTable : Obligations.DecoderTransitionTable := by
  intro s t e hidx h
  obtain ⟨-, rfl⟩ := deliver_dec_iff.mp h
  rw [withDec_dec]
  cases e with
  | invoke =>
    cases hst : s.dec.st with
    | idle | done => simp only [Dec.onEvent, hst, DecSt.accepts]; rfl
    | b0 | b1 | xh | xl | key | pay | chk | err => simp [Dec.onEvent, hst, DecSt.accepts]
  | rxFail => cases hst : s.dec.st <;> simp [Dec.onEvent, hst, DecSt.awaiting]
  | check =>
    cases hst : s.dec.st with
    | chk => simp only [Dec.onEvent, hst, if_true, Dec.check_st]
    | idle | b0 | b1 | xh | xl | key | pay | done | err => simp [Dec.onEvent, hst]
  | rxByte b =>
    show (s.dec.takeByte b).st = _
    cases hst : s.dec.st with
    | b0 => rw [Dec.takeByte_b0 b hst, Dec.takeByte0_st]
    | b1 => exact Dec.takeByte_b1_st b hst
    | xh => rw [Dec.takeByte_xh b hst, Dec.takeLenHi_st]
    | xl => rw [Dec.takeByte_xl b hst, Dec.takeLenLo_st]
    | key => rw [Dec.takeByte_key b hst, Dec.takeKey_st b hst]
    | pay => rw [Dec.takeByte_pay b hst, Dec.takePayload_st b hst (hidx hst)]
    | idle | chk | done | err => simp [Dec.takeByte, hst]

theorem Enc.invoke_st (max : Config.EncMax) (n : Nat) (e : Enc) :
    (e.invoke max n).st = if n = 0 then .done else if n ≤ max.val then .pay else .err := by
  obtain ⟨hmax, -⟩ := encMax_bounds max
  obtain ⟨hn, he⟩ | ⟨hn, hle, he⟩ | ⟨hn, he⟩ := e.invoke_cases max n
  · rw [he, Enc.startShort_st, if_pos (show n ≤ max.val by omega)]
  · rw [he, if_neg (by omega), if_pos hle]
    rfl
  · rw [he, if_neg (by omega), if_neg (by omega)]
    rfl

theorem Enc.takePayload_st {e : Enc} (b : Byte) (h : e.st = .pay) (hidx : e.idx.toNat < e.n.toNat) :
    (e.takePayload b).st = if e.idx.toNat + 1 < e.n.toNat then .pay else .done := by
  obtain ⟨hlast, he⟩ | ⟨hnot, he⟩ := e.takePayload_cases b
  · rw [Enc.idx_succ_eq_n_iff hidx] at hlast
    rw [he, if_neg (by omega)]
  · rw [ne_eq, Enc.idx_succ_eq_n_iff hidx] at hnot
    rw [he, if_pos (by omega)]
    exact h

/-- Settles O44: the state of the unit's successor, by event and state. -/
theorem encoderTransitionTable : Obligations.EncoderTransitionTable := by
  intro s t e hidx h
  obtain ⟨-, rfl⟩ := deliver_enc_iff.mp h
  rw [withEnc_enc]
  cases e with
  | invoke n => cases hst : s.enc.st <;> simp [Enc.onEvent, hst, EncSt.accepts, Enc.invoke_st]
  | plByte b =>
    cases hst : s.enc.st with
    | pay => simp [Enc.onEvent, hst, Enc.takePayload_st b hst (hidx hst)]
    | idle | done | err => simp [Enc.onEvent, hst]

/-! The position in the frame (R53). -/

theorem Dec.headerLen_short {d : Dec} (h : d.mark.toNat ≤ 125) : d.headerLen = 2 := if_pos h

theorem Dec.headerLen_ext16 {d : Dec} (h : d.mark.toNat = 126) : d.headerLen = 4 := if_neg (by simp [h])

/-- Header byte 1 is refused, or the position after it is 2. -/
theorem Dec.takeByte_b1_framePos {d : Dec} (b : Byte) (h : d.st = .b1) :
    (d.takeByte b).st = .err ∨ (d.takeByte b).framePos = some 2 := by
  obtain hb | ⟨hb, hm⟩ | rfl | rfl := byte1_classes b
  · rw [Dec.takeByte_unmasked h hb]
    exact .inl rfl
  · rw [Dec.takeByte_short h hb hm]
    have hlen : (d.takeShort (mark7 b)).headerLen = 2 := Dec.headerLen_short (by rwa [Dec.takeShort_mark, mark7_toNat hb])
    exact .inr (by simp [Dec.framePos, hlen])
  · rw [Dec.takeByte_ext16 h]
    exact .inr rfl
  · rw [Dec.takeByte_ext64 h]
    exact .inl rfl

theorem Dec.takeKey_framePos {d : Dec} (b : Byte) (h : d.st = .key) :
    (d.takeKey b).framePos = some (d.headerLen + d.kidx.toNat + 1) := by
  obtain ⟨hk, hd⟩ | ⟨hk, hl, hd⟩ | ⟨hk, hl, hd⟩ := d.takeKey_cases b
  all_goals rw [hd]
  · have hsucc : (d.kidx + 1).toNat = d.kidx.toNat + 1 := by bv_omega
    simp only [Dec.framePos, h, hsucc]
    rfl
  · have hlen : d.len.toNat = 0 := congrArg BitVec.toNat hl
    show some (d.headerLen + 4 + d.len.toNat) = _
    rw [hlen, hk]
  · show some (d.headerLen + 4 + 0) = _
    rw [hk]

theorem Dec.takePayload_framePos {d : Dec} (b : Byte) (h : d.st = .pay) (hidx : d.idx.toNat < d.len.toNat) :
    (d.takePayload b).framePos = some (d.headerLen + 4 + d.idx.toNat + 1) := by
  obtain ⟨hlast, hd⟩ | ⟨hnot, hd⟩ := d.takePayload_cases b
  all_goals rw [hd]
  · show some (d.headerLen + 4 + d.len.toNat) = _
    rw [← (Dec.idx_succ_eq_len_iff hidx).mp hlast]
    rfl
  · have hpay : (d.storePayload b).st = .pay := h
    simp only [Dec.framePos, hpay]
    show some (d.headerLen + 4 + (d.idx + 1).toNat) = _
    rw [Dec.idx_succ_toNat hidx]
    rfl

/-- Settles O33: the six byte-awaiting states. -/
theorem eachByteAdvancesThePositionByOne : Obligations.EachByteAdvancesThePositionByOne := by
  intro s b h hready
  have hlen : s.dec.len.toNat < 65536 := s.dec.len.isLt
  refine ⟨_, deliver_rxByte b fun hst => ?_, ?_⟩
  · have hidx := h.dec.pay hst
    show s.dec.idx.toNat < 65535
    omega
  rw [withDec_dec]
  cases hst : s.dec.st with
  | b0 => exact .inr ⟨0, by simp [Dec.framePos, hst], by simp [Dec.takeByte_b0 b hst, Dec.framePos]⟩
  | b1 => exact (Dec.takeByte_b1_framePos b hst).imp_right fun hpos => ⟨1, by simp [Dec.framePos, hst], hpos⟩
  | xh => exact .inr ⟨2, by simp [Dec.framePos, hst], by simp [Dec.takeByte_xh b hst, Dec.framePos]⟩
  | xl =>
    have hhead : (s.dec.takeLenLo b).headerLen = 4 := Dec.headerLen_ext16 (h.dec.ext (.inr hst))
    exact .inr ⟨3, by simp [Dec.framePos, hst], by simp [Dec.takeByte_xl b hst, Dec.framePos, hhead]⟩
  | key => exact .inr ⟨_, by rw [Dec.framePos, hst], by rw [Dec.takeByte_key b hst, Dec.takeKey_framePos b hst]⟩
  | pay =>
    exact .inr ⟨_, by rw [Dec.framePos, hst], by rw [Dec.takeByte_pay b hst, Dec.takePayload_framePos b hst (h.dec.pay hst)]⟩
  | idle | chk | done | err => simp [State.rxReady, DecSt.awaiting, hst] at hready

end Sys2Proof.Machine
end

section
/-! PROOFS. Whole frames as pure functions (R175, R197, R100, R120): what `encode` builds, what `decode` gives for a header byte, for a
client frame and for a part of one. -/

namespace Sys2Proof.Machine

@[simp] theorem exec_decodeFrame (bs : List Byte) (fail : Bool) (s : State) :
    exec (.decodeFrame bs fail) s = .next (s.withResult (.outcome (frameDecode s.par.text bs fail))) := rfl
@[simp] theorem exec_encodeMessage (p : List Byte) (s : State) :
    exec (.encodeMessage p) s = .next (s.withResult (.outcome (frameEncode s.par.encMax p))) := rfl

/-! `encode` (R197). -/

theorem frameEncode_eq (max : Config.EncMax) (p : List Byte) :
    frameEncode max p =
      if p.length ≤ 125 then .ok ([0x81, BitVec.ofNat 8 p.length] ++ p)
      else if p.length ≤ max.val then .ok ([0x81, 0x7E, BitVec.ofNat 8 (p.length / 256), BitVec.ofNat 8 p.length] ++ p)
      else .error .messageTooLarge := by
  obtain ⟨hs, -, -⟩ | ⟨hs, hx, -⟩ | ⟨hs, hx, -⟩ := lengthClass_exactlyOne max p.length
  · rw [frameEncode, if_pos hs, if_pos ((fitsShort_iff _).mp hs)]
    rfl
  all_goals
    have hlong : ¬p.length ≤ 125 := fun h => by simp [(fitsShort_iff _).mpr h] at hs
    rw [frameEncode, hs, if_neg Bool.false_ne_true, if_neg hlong]
  · rw [if_pos hx, if_pos ((fitsExt16_iff max _).mp hx).2]
    rfl
  · rw [hx, if_neg Bool.false_ne_true, if_neg]
    intro h
    simp [(fitsExt16_iff max _).mpr ⟨Nat.not_le.mp hlong, h⟩] at hx

/-- Settles O15: the row shows `encode`. -/
theorem encodeRowBuildsTheFrame : Obligations.EncodeRowBuildsTheFrame := by
  intro s p
  rw [exec_encodeMessage, frameEncode_eq]
  rfl

/-! `decode` by header byte 1 (R175). -/

theorem frameDecode_unmasked (rule : Config.TextRule) (b0 : Byte) {b1 : Byte} (r : List Byte) (fail : Bool) (h : b1.toNat < 128) :
    frameDecode rule (b0 :: b1 :: r) fail = .error .unmaskedFrame :=
  if_neg fun hm => absurd ((maskbit_iff b1).mp hm) (Nat.not_le.mpr h)

theorem frameDecode_short (rule : Config.TextRule) (b0 : Byte) {b1 : Byte} (r : List Byte) (fail : Bool) (h : 128 ≤ b1.toNat)
    (hm : b1.toNat - 128 ≤ 125) : frameDecode rule (b0 :: b1 :: r) fail = decodeBody rule (b1.toNat - 128) r fail := by
  have hi : isInline (mark7 b1) = true := by rwa [isInline_iff, mark7_toNat h]
  rw [← mark7_toNat h]
  exact (if_pos ((maskbit_iff b1).mpr h)).trans (if_pos hi)

theorem frameDecode_ext16 (rule : Config.TextRule) (b0 hi lo : Byte) (r : List Byte) (fail : Bool) :
    frameDecode rule (b0 :: 0xFE :: hi :: lo :: r) fail = decodeBody rule (be16 hi lo).toNat r fail := rfl

theorem frameDecode_ext64 (rule : Config.TextRule) (b0 : Byte) (r : List Byte) (fail : Bool) :
    frameDecode rule (b0 :: 0xFF :: r) fail = .error .unsupportedFrameSize := rfl

/-! `decode` from the key on. -/

/-- What `decode` gives for a whole payload (R172, R175). -/
def verdict (rule : Config.TextRule) (p : List Byte) : FrameOutcome :=
  if utf8Valid rule p then .ok p else .error .invalidEncoding

theorem decodeBody_short (rule : Config.TextRule) {len : Nat} {r : List Byte} (fail : Bool) (h : r.length < 4 + len) :
    decodeBody rule len r fail = exhausted fail := by
  match r, h with
  | [], _ => rfl
  | [_], _ => rfl
  | [_, _], _ => rfl
  | [_, _, _], _ => rfl
  | _ :: _ :: _ :: _ :: q, h =>
    simp only [List.length_cons] at h
    exact if_pos (by omega)

/-- A key and a payload masked under it give the payload back, whatever follows (R147). -/
theorem decodeBody_masked (rule : Config.TextRule) (key : Key) (p after : List Byte) (fail : Bool) :
    decodeBody rule p.length (keyBytes key ++ maskSeq key p ++ after) fail = verdict rule p := by
  have hlen : (maskSeq key p).length = p.length := unmask_length key p
  have htake : (maskSeq key p ++ after).take p.length = maskSeq key p := by rw [← hlen, List.take_left]
  have hunmask : unmask key (maskSeq key p) = p := unmask_unmask key p
  simp only [keyBytes, List.cons_append, List.nil_append, decodeBody, htake, hunmask, verdict]
  exact if_neg (by simp [hlen])

/-! `decode` of a client frame (R175, R132). -/

theorem keyBytes_maskSeq_length (key : Key) (p : List Byte) : (keyBytes key ++ maskSeq key p).length = 4 + p.length := by
  rw [List.length_append, maskSeq, unmask_length]
  rfl

/-- The length of a payload of the 16-bit class is what its two length bytes say (R143 to R145). -/
theorem be16_hi8_lo8 {n : Nat} (h : n ≤ 65535) : (be16 (hi8 n) (lo8 n)).toNat = n := by
  rw [be16_toNat, hi8_toNat, lo8_toNat]
  omega

theorem frameDecode_clientFrame16 (rule : Config.TextRule) (b0 : Byte) (key : Key) {p : List Byte} (after : List Byte) (fail : Bool)
    (h : p.length ≤ 65535) : frameDecode rule (clientFrame16 b0 key p ++ after) fail = verdict rule p := by
  rw [clientFrame16, List.cons_append, List.cons_append, List.cons_append, List.cons_append, frameDecode_ext16, be16_hi8_lo8 h,
    decodeBody_masked]

theorem frameDecode_take_clientFrame16 (rule : Config.TextRule) (b0 : Byte) (key : Key) {p : List Byte} (fail : Bool) {k : Nat}
    (h : p.length ≤ 65535) (hk : k < (clientFrame16 b0 key p).length) :
    frameDecode rule ((clientFrame16 b0 key p).take k) fail = exhausted fail := by
  match k, hk with
  | 0, _ => rfl
  | 1, _ => rfl
  | 2, _ => rfl
  | 3, _ => rfl
  | k + 4, hk =>
    simp only [clientFrame16, List.length_cons, keyBytes_maskSeq_length] at hk
    simp only [clientFrame16, List.take_succ_cons, frameDecode_ext16, be16_hi8_lo8 h]
    exact decodeBody_short rule fail (by rw [List.length_take]; omega)

/-- The mask bit and a length of the short class are one byte, which gives the length back (R109). -/
theorem maskBit_add_length {n : Nat} (h : n ≤ 125) : (BitVec.ofNat 8 (0x80 + n)).toNat = 128 + n := by
  rw [BitVec.toNat_ofNat]
  omega

theorem frameDecode_clientFrame (rule : Config.TextRule) (b0 : Byte) (key : Key) {p : List Byte} (after : List Byte) (fail : Bool)
    (h : p.length ≤ 65535) : frameDecode rule (clientFrame b0 key p ++ after) fail = verdict rule p := by
  rw [clientFrame]
  split
  · have hb := maskBit_add_length ‹p.length ≤ 125›
    rw [List.cons_append, List.cons_append, frameDecode_short _ _ _ _ (by omega) (by omega), hb, Nat.add_sub_cancel_left,
      decodeBody_masked]
  · exact frameDecode_clientFrame16 rule b0 key after fail h

theorem frameDecode_take_clientFrame (rule : Config.TextRule) (b0 : Byte) (key : Key) {p : List Byte} (fail : Bool) {k : Nat}
    (h : p.length ≤ 65535) (hk : k < (clientFrame b0 key p).length) :
    frameDecode rule ((clientFrame b0 key p).take k) fail = exhausted fail := by
  rw [clientFrame] at hk ⊢
  split at hk
  · rename_i hshort
    have hb := maskBit_add_length hshort
    rw [if_pos hshort]
    match k, hk with
    | 0, _ => rfl
    | 1, _ => rfl
    | k + 2, hk =>
      simp only [List.length_cons, keyBytes_maskSeq_length] at hk
      rw [List.take_succ_cons, List.take_succ_cons, frameDecode_short _ _ _ _ (by omega) (by omega)]
      exact decodeBody_short rule fail (by rw [List.length_take]; omega)
  · rename_i hlong
    rw [if_neg hlong]
    exact frameDecode_take_clientFrame16 rule b0 key fail h hk

/-- `frame` is a client frame of `p`, in either length class. -/
def IsClientFrame (b0 : Byte) (key : Key) (p frame : List Byte) : Prop :=
  p.length ≤ 65535 ∧ (frame = clientFrame b0 key p ∨ frame = clientFrame16 b0 key p)

theorem IsClientFrame.frameDecode {b0 : Byte} {key : Key} {p frame : List Byte} (h : IsClientFrame b0 key p frame)
    (rule : Config.TextRule) (after : List Byte) (fail : Bool) : frameDecode rule (frame ++ after) fail = verdict rule p := by
  obtain ⟨hp, rfl | rfl⟩ := h
  · exact frameDecode_clientFrame rule b0 key after fail hp
  · exact frameDecode_clientFrame16 rule b0 key after fail hp

theorem IsClientFrame.frameDecode_take {b0 : Byte} {key : Key} {p frame : List Byte} (h : IsClientFrame b0 key p frame)
    (rule : Config.TextRule) (fail : Bool) {k : Nat} (hk : k < frame.length) :
    Machine.frameDecode rule (frame.take k) fail = exhausted fail := by
  obtain ⟨hp, rfl | rfl⟩ := h
  · exact frameDecode_take_clientFrame rule b0 key fail hp hk
  · exact frameDecode_take_clientFrame16 rule b0 key fail hp hk

/-- Settles O16: the row shows `decode`. -/
theorem decodeRowGivesEveryOutcome : Obligations.DecodeRowGivesEveryOutcome := by
  intro s b0 b1 key p after fail frame
  refine ⟨fun hp hframe => ?_, fun h => ?_, ?_⟩
  · have h : IsClientFrame b0 key p frame := ⟨hp, hframe⟩
    refine ⟨?_, fun k hk => ?_⟩
    · rw [exec_decodeFrame, h.frameDecode]
      rfl
    · rw [exec_decodeFrame, h.frameDecode_take _ _ hk]
      rfl
  · rw [exec_decodeFrame, frameDecode_unmasked _ _ _ _ h]
    rfl
  · rintro rfl
    rw [exec_decodeFrame, frameDecode_ext64]
    rfl

end Sys2Proof.Machine
end

section
/-! PROOFS. The decoder unit refines `decode` (41_frame_decoder section 7): what reading the bytes of a transport makes of the unit, in
the stages of a frame (header, key, payload), and the obligations about it. -/

namespace Sys2Proof.Machine

/-! Bytes one after the other. -/

/-- The unit after the bytes of a transport. -/
def Dec.feed (bs : List Byte) (d : Dec) : Dec := bs.foldl (fun d b => d.takeByte b) d

@[simp] theorem Dec.feed_nil (d : Dec) : d.feed [] = d := rfl
@[simp] theorem Dec.feed_cons (b : Byte) (bs : List Byte) (d : Dec) : d.feed (b :: bs) = (d.takeByte b).feed bs := rfl

theorem Dec.feed_of_not_awaiting {d : Dec} (bs : List Byte) (h : d.st.awaiting = false) : d.feed bs = d := by
  induction bs with
  | nil => rfl
  | cons b bs ih => rw [Dec.feed_cons, Dec.takeByte_of_not_awaiting b h, ih]

/-- In `D_PAY` a payload byte is due; this alone keeps a write inside the buffer. -/
def Dec.ByteDue (d : Dec) : Prop := d.st = .pay → d.idx.toNat < d.len.toNat

theorem Dec.ByteDue.of_st_ne {d : Dec} (h : d.st ≠ .pay) : d.ByteDue := fun hst => absurd hst h

theorem Dec.ByteDue.idx_lt_cap {d : Dec} (h : d.ByteDue) (hst : d.st = .pay) : d.idx.toNat < Config.decCap := by
  have hlen : d.len.toNat < 65536 := d.len.isLt
  have hidx := h hst
  show d.idx.toNat < 65535
  omega

theorem Dec.ByteDue.takeKey {d : Dec} (b : Byte) (hst : d.st = .key) : (d.takeKey b).ByteDue := by
  obtain ⟨-, hd⟩ | ⟨-, -, hd⟩ | ⟨-, hl, hd⟩ := d.takeKey_cases b
  all_goals rw [hd]
  · exact .of_st_ne (by simp [hst])
  · exact .of_st_ne nofun
  · exact fun _ => Nat.pos_of_ne_zero fun h0 => hl (BitVec.eq_of_toNat_eq h0)

theorem Dec.ByteDue.takePayload {d : Dec} (h : d.ByteDue) (b : Byte) (hst : d.st = .pay) : (d.takePayload b).ByteDue := by
  intro hpay
  obtain ⟨-, hidx, -, hlen, -⟩ := d.takePayload_buf_frame b
  rw [Dec.takePayload_st b hst (h hst)] at hpay
  rw [hidx, hlen, Dec.idx_succ_toNat (h hst)]
  by_contra hlt
  simp [hlt] at hpay

theorem Dec.ByteDue.takeByte {d : Dec} (h : d.ByteDue) (b : Byte) : (d.takeByte b).ByteDue := by
  cases hst : d.st with
  | b0 => exact .of_st_ne (by simp [Dec.takeByte_b0 b hst])
  | b1 =>
    refine .of_st_ne ?_
    rw [Dec.takeByte_b1_st b hst]
    split_ifs <;> nofun
  | xh => exact .of_st_ne (by simp [Dec.takeByte_xh b hst])
  | xl => exact .of_st_ne (by simp [Dec.takeByte_xl b hst])
  | key => exact Dec.takeByte_key b hst ▸ .takeKey b hst
  | pay => exact Dec.takeByte_pay b hst ▸ h.takePayload b hst
  | idle | chk | done | err =>
    rw [Dec.takeByte_of_not_awaiting b (by simp [hst, DecSt.awaiting])]
    exact h

theorem deliverAll_append {es fs : List Event} {s t : State} (h : deliverAll es s = .next t) :
    deliverAll (es ++ fs) s = deliverAll fs t := by
  induction es generalizing s with
  | nil => cases h; rfl
  | cons e es ih =>
    rw [List.cons_append, deliverAll]
    rw [deliverAll] at h
    cases hd : deliver e s with
    | next u =>
      simp only [hd] at h ⊢
      exact ih h
    | fault r => simp [hd] at h
    | refused r => simp [hd] at h

theorem deliverAll_cons_next {e : Event} {es : List Event} {s t : State} (h : deliver e s = .next t) :
    deliverAll (e :: es) s = deliverAll es t := by rw [deliverAll, h]

theorem deliverAll_rxBytes {s : State} (bs : List Byte) (h : s.dec.ByteDue) :
    deliverAll (bs.map fun b => Event.dec (.rxByte b)) s = .next (s.withDec (s.dec.feed bs)) := by
  induction bs generalizing s with
  | nil => rfl
  | cons b bs ih =>
    rw [List.map_cons, deliverAll_cons_next (deliver_rxByte b h.idx_lt_cap)]
    exact ih (s := s.withDec (s.dec.takeByte b)) (h.takeByte b)

/-! What a unit that has read some bytes stands for. -/

/-- `DEC_BUF[0..DEC_LEN)` is `p`. -/
def Dec.Holds (d : Dec) (p : List Byte) : Prop :=
  d.len.toNat = p.length ∧ ∀ i (h : i < p.length), Memory.read d.buf i = some p[i]

/-- The unit awaits more, has refused the frame, or holds its payload, as the outcome says. -/
inductive Dec.ReadsTo (d : Dec) (out : Config.TextRule → Bool → FrameOutcome) : Prop
  | awaits (hst : d.st.awaiting = true) (hout : ∀ rule fail, out rule fail = exhausted fail)
  | refuses (hst : d.st = .err) (herr : d.err ≠ .invalidEncoding) (hout : ∀ rule fail, out rule fail = .error d.err)
  | completes (p : List Byte) (hst : d.st = .chk) (hp : d.Holds p) (hout : ∀ rule fail, out rule fail = verdict rule p)

/-! The payload. -/

/-- What `decode` gives from the payload byte after `pre` on. -/
def payloadOutcome (len : Nat) (key : Key) (pre q : List Byte) (rule : Config.TextRule) (fail : Bool) : FrameOutcome :=
  if pre.length + q.length < len then exhausted fail
  else verdict rule (pre ++ unmaskFrom key pre.length (q.take (len - pre.length)))

theorem decodeBody_eq_payloadOutcome (len : Nat) (k0 k1 k2 k3 : Byte) (q : List Byte) (rule : Config.TextRule) (fail : Bool) :
    decodeBody rule len (k0 :: k1 :: k2 :: k3 :: q) fail = payloadOutcome len ⟨k0, k1, k2, k3⟩ [] q rule fail := by
  simp only [payloadOutcome, List.length_nil, Nat.zero_add]
  rfl

theorem payloadOutcome_complete (key : Key) (p q : List Byte) (rule : Config.TextRule) (fail : Bool) :
    payloadOutcome p.length key p q rule fail = verdict rule p := by
  rw [payloadOutcome, if_neg (by omega), Nat.sub_self, List.take_zero]
  simp [unmaskFrom]

theorem payloadOutcome_cons {len : Nat} (key : Key) {pre : List Byte} (b : Byte) (q : List Byte) (h : pre.length < len) :
    payloadOutcome len key pre (b :: q) = payloadOutcome len key (pre ++ [unmask1 b key pre.length]) q := by
  obtain ⟨k, rfl⟩ := Nat.exists_eq_add_of_lt h
  have h1 : pre.length + k + 1 - pre.length = k + 1 := by omega
  have h2 : pre.length + k + 1 - (pre.length + 1) = k := by omega
  have hlen : pre.length + (q.length + 1) = pre.length + 1 + q.length := by omega
  funext rule fail
  simp only [payloadOutcome, List.length_cons, List.length_append, List.length_nil, Nat.zero_add, h1, h2, List.take_succ_cons,
    unmaskFrom, List.append_assoc, List.cons_append, List.nil_append, hlen]

/-- The payload bytes stored so far. -/
def Dec.Stored (d : Dec) (pre : List Byte) : Prop :=
  d.idx.toNat = pre.length ∧ ∀ i (h : i < pre.length), Memory.read d.buf i = some pre[i]

/-- A byte stored behind the others. -/
theorem Memory.read_write_append {m : Memory} {pre : List Byte} (v : Byte)
    (h : ∀ i (h : i < pre.length), Memory.read m i = some pre[i]) (i : Nat) (hi : i < (pre ++ [v]).length) :
    Memory.read (Memory.write m pre.length v) i = some (pre ++ [v])[i] := by
  rw [List.length_append, List.length_singleton] at hi
  obtain hlt | rfl : i < pre.length ∨ i = pre.length := Nat.lt_succ_iff_lt_or_eq.mp hi
  · rw [Memory.read_write_other _ _ hlt.ne, h i hlt, List.getElem_append_left hlt]
  · rw [Memory.read_write_same, List.getElem_concat_length rfl]

/-- By induction on the bytes: each is stored behind the others; the last one ends the payload. -/
theorem Dec.feed_payload {d : Dec} {pre : List Byte} (q : List Byte) (hst : d.st = .pay) (hpre : d.Stored pre)
    (hidx : d.idx.toNat < d.len.toNat) :
    (d.feed q).ReadsTo (payloadOutcome d.len.toNat d.key pre q) := by
  induction q generalizing d pre with
  | nil =>
    refine .awaits (by simp [hst, DecSt.awaiting]) fun rule fail => if_pos ?_
    rw [List.length_nil, ← hpre.1]
    exact hidx
  | cons b q ih =>
    obtain ⟨hlen, hread⟩ := hpre
    have hsucc : (d.idx + 1).toNat = (pre ++ [unmask1 b d.key pre.length]).length := by
      rw [Dec.idx_succ_toNat hidx, hlen, List.length_append, List.length_singleton]
    have hbuf : (d.storePayload b).buf = Memory.write d.buf pre.length (unmask1 b d.key pre.length) := by
      rw [← hlen]
      rfl
    have hread' := hbuf ▸ Memory.read_write_append (unmask1 b d.key pre.length) hread
    rw [Dec.feed_cons, Dec.takeByte_pay b hst, payloadOutcome_cons d.key b q (hlen ▸ hidx)]
    obtain ⟨hlast, hd⟩ | ⟨hnot, hd⟩ := d.takePayload_cases b
    all_goals rw [hd]
    · have hfull : d.len.toNat = (pre ++ [unmask1 b d.key pre.length]).length := hlast ▸ hsucc
      rw [Dec.feed_of_not_awaiting q rfl, hfull]
      exact .completes _ rfl ⟨hfull, hread'⟩ (payloadOutcome_complete _ _ q)
    · rw [ne_eq, Dec.idx_succ_eq_len_iff hidx] at hnot
      have hdue : (d.idx + 1).toNat < d.len.toNat := by
        rw [Dec.idx_succ_toNat hidx]
        omega
      exact ih (d := d.storePayload b) hst ⟨hsucc, hread'⟩ hdue

/-! The key. -/

theorem Dec.feed_threeKeyBytes {d : Dec} (k0 k1 k2 : Byte) (hst : d.st = .key) (hkidx : d.kidx = 0) :
    d.feed [k0, k1, k2] = { d with key := ⟨k0, k1, k2, d.key.k3⟩, kidx := 3 } := by
  obtain ⟨st, mark, lenHi, lenLo, kidx, key, idx, err, buf, free, rd⟩ := d
  obtain rfl : st = .key := hst
  obtain rfl : kidx = 0 := hkidx
  rfl

theorem Dec.feed_oneKeyByte_st {d : Dec} (k0 : Byte) (hst : d.st = .key) (hkidx : d.kidx = 0) : (d.feed [k0]).st = .key := by
  rw [Dec.feed_cons, Dec.feed_nil, Dec.takeByte_key k0 hst, Dec.takeKey_st k0 hst, hkidx]
  rfl

theorem Dec.feed_twoKeyBytes_st {d : Dec} (k0 k1 : Byte) (hst : d.st = .key) (hkidx : d.kidx = 0) : (d.feed [k0, k1]).st = .key := by
  obtain ⟨st, mark, lenHi, lenLo, kidx, key, idx, err, buf, free, rd⟩ := d
  obtain rfl : st = .key := hst
  obtain rfl : kidx = 0 := hkidx
  rfl

/-- From the key on the unit does what `decode` does: three bytes are latched, the fourth leaves `D_KEY` (R169). -/
theorem Dec.feed_key {d : Dec} (r : List Byte) (hst : d.st = .key) (hkidx : d.kidx = 0) :
    (d.feed r).ReadsTo fun rule fail => decodeBody rule d.len.toNat r fail := by
  match r with
  | [] => exact .awaits (by simp [hst, DecSt.awaiting]) fun rule fail => rfl
  | [k0] => exact .awaits (by rw [Dec.feed_oneKeyByte_st k0 hst hkidx]; rfl) fun rule fail => rfl
  | [k0, k1] => exact .awaits (by rw [Dec.feed_twoKeyBytes_st k0 k1 hst hkidx]; rfl) fun rule fail => rfl
  | [k0, k1, k2] => exact .awaits (by rw [Dec.feed_threeKeyBytes k0 k1 k2 hst hkidx, hst]; rfl) fun rule fail => rfl
  | k0 :: k1 :: k2 :: k3 :: q =>
    have hfeed : d.feed (k0 :: k1 :: k2 :: k3 :: q) = (Dec.takeByte k3 (d.feed [k0, k1, k2])).feed q := rfl
    simp only [decodeBody_eq_payloadOutcome]
    rw [hfeed, Dec.feed_threeKeyBytes k0 k1 k2 hst hkidx, Dec.takeByte_key k3 (by exact hst)]
    obtain ⟨hk, -⟩ | ⟨-, hlen, hd⟩ | ⟨-, hlen, hd⟩ := Dec.takeKey_cases k3 { d with key := ⟨k0, k1, k2, d.key.k3⟩, kidx := 3 }
    · exact absurd hk (Nat.lt_irrefl 3)
    all_goals rw [hd]
    · have hzero : d.len.toNat = ([] : List Byte).length := congrArg BitVec.toNat hlen
      rw [Dec.feed_of_not_awaiting q rfl, hzero]
      exact .completes [] rfl ⟨hzero, nofun⟩ (payloadOutcome_complete _ [] q)
    · exact Dec.feed_payload (pre := []) q rfl ⟨rfl, nofun⟩ (Nat.pos_of_ne_zero fun h0 => hlen (BitVec.eq_of_toNat_eq h0))

/-! The header. -/

/-- A refusal ends the reading: what follows changes nothing (R173). -/
theorem Dec.ReadsTo.of_err {d : Dec} (bs : List Byte) {out : Config.TextRule → Bool → FrameOutcome} (hst : d.st = .err)
    (herr : d.err ≠ .invalidEncoding) (hout : ∀ rule fail, out rule fail = .error d.err) : (d.feed bs).ReadsTo out := by
  rw [Dec.feed_of_not_awaiting bs (by simp [hst])]
  exact .refuses hst herr hout

/-- After header byte 0 (R162 to R168). -/
theorem Dec.feed_byte1 {d : Dec} (b0 b1 : Byte) (r : List Byte) (hst : d.st = .b1) :
    (d.feed (b1 :: r)).ReadsTo fun rule fail => frameDecode rule (b0 :: b1 :: r) fail := by
  rw [Dec.feed_cons]
  obtain hb | ⟨hb, hm⟩ | rfl | rfl := byte1_classes b1
  · rw [Dec.takeByte_unmasked hst hb]
    exact .of_err r rfl nofun fun rule fail => frameDecode_unmasked rule b0 r fail hb
  · rw [Dec.takeByte_short hst hb hm]
    simp only [frameDecode_short _ b0 r _ hb hm, ← mark7_toNat hb, ← d.takeShort_len]
    exact Dec.feed_key r rfl rfl
  · rw [Dec.takeByte_ext16 hst]
    match r with
    | [] => exact .awaits rfl fun rule fail => rfl
    | [_] => exact .awaits rfl fun rule fail => rfl
    | hi :: lo :: r => exact Dec.feed_key (d := (d.takeExt16.takeLenHi hi).takeLenLo lo) r rfl rfl
  · rw [Dec.takeByte_ext64 hst]
    exact .of_err r rfl nofun fun rule fail => rfl

/-- From `D_B0` the unit does what `decode` does. -/
theorem Dec.feed_frame {d : Dec} (bs : List Byte) (hst : d.st = .b0) :
    (d.feed bs).ReadsTo fun rule fail => frameDecode rule bs fail := by
  have hnext : ∀ b, d.takeByte b = d.takeByte0 := fun b => Dec.takeByte_b0 b hst
  match bs with
  | [] => exact .awaits (by simp [hst, DecSt.awaiting]) fun rule fail => rfl
  | [b0] => exact .awaits (by rw [Dec.feed_cons, hnext]; rfl) fun rule fail => rfl
  | b0 :: b1 :: r =>
    rw [Dec.feed_cons, hnext]
    exact Dec.feed_byte1 b0 b1 r rfl

/-! The failure and the check. -/

/-- What the host sees of a unit that has done what `decode` gives. -/
def Dec.Shows (d : Dec) : FrameOutcome → Prop
  | .ok p => d.st = .done ∧ d.Holds p
  | .error c => d.st = .err ∧ d.err = c
  | .wait => d.st.awaiting = true

/-- The check makes the verdict (R172). -/
theorem Dec.Holds.check_shows {d : Dec} {p : List Byte} (h : d.Holds p) (rule : Config.TextRule) :
    (d.check rule).Shows (verdict rule p) := by
  obtain ⟨hlen, hread⟩ := h
  have hpayload := Dec.payload_eq hlen.symm hread
  obtain ⟨hv, hd⟩ | ⟨hv, hd⟩ := d.check_cases rule
  all_goals
    rw [hpayload] at hv
    rw [hd, verdict, hv]
  · exact ⟨rfl, hlen, hread⟩
  · exact ⟨rfl, rfl⟩

/-- The failure, where there is one, strikes a unit that awaits a byte; the check follows where the payload is complete. -/
theorem Dec.ReadsTo.shows {d : Dec} {out : Config.TextRule → Bool → FrameOutcome} (h : d.ReadsTo out) (rule : Config.TextRule)
    (fail : Bool) : ((if fail then d.onEvent rule .rxFail else d).onEvent rule .check).Shows (out rule fail) := by
  cases h with
  | awaits hst hout =>
    rw [hout]
    cases fail with
    | true => simp [Dec.onEvent, hst, exhausted, Dec.Shows]
    | false =>
      have hne : d.st ≠ .chk := fun h => by simp [h, DecSt.awaiting] at hst
      simpa [Dec.onEvent, hne, exhausted, Dec.Shows] using hst
  | refuses hst herr hout =>
    rw [hout]
    cases fail <;> simp [Dec.onEvent, hst, Dec.Shows]
  | completes p hst hp hout =>
    rw [hout]
    have hchk : (if fail then d.onEvent rule .rxFail else d).onEvent rule .check = d.check rule := by
      cases fail <;> simp [Dec.onEvent, hst, DecSt.awaiting]
    rw [hchk]
    exact hp.check_shows rule

theorem deliverAll_rxEvents {s : State} (bs : List Byte) (fail : Bool) (h : s.dec.ByteDue) :
    deliverAll (rxEvents bs fail ++ [.dec .check]) s = .next (s.withDec
      ((if fail then (s.dec.feed bs).onEvent s.par.text .rxFail else s.dec.feed bs).onEvent s.par.text .check)) := by
  rw [rxEvents, List.append_assoc, deliverAll_append (deliverAll_rxBytes bs h)]
  cases fail with
  | true =>
    exact (deliverAll_cons_next (deliver_dec_of_no_byte _ (by simp))).trans
      (deliverAll_cons_next (deliver_dec_of_no_byte _ (by simp)))
  | false => exact deliverAll_cons_next (deliver_dec_of_no_byte _ (by simp))

/-- An accepted invocation, the bytes, the failure and the check lead to what `decode` gives. -/
theorem deliverAll_decodes {s : State} (bs : List Byte) (fail : Bool) (hst : s.dec.st = .idle ∨ s.dec.st = .done) :
    ∃ t, deliverAll (.dec .invoke :: (rxEvents bs fail ++ [.dec .check])) s = .next t ∧ OnlyDec s t ∧
      t.dec.Shows (frameDecode s.par.text bs fail) := by
  have hstart : deliver (.dec .invoke) s = .next (s.withDec s.dec.start) := by
    rw [deliver_dec_of_no_byte s (by simp), Dec.onEvent, if_pos ((DecSt.accepts_iff _).mpr hst)]
  refine ⟨_, (deliverAll_cons_next hstart).trans (deliverAll_rxEvents bs fail (.of_st_ne nofun)), onlyDec_withDec _ _, ?_⟩
  exact (Dec.feed_frame (d := s.dec.start) bs rfl).shows s.par.text fail

/-- Settles O34: header, key and payload are read stage by stage as `decode` reads them. -/
theorem decoderRefinesDecode : Obligations.DecoderRefinesDecode := by
  intro s bs fail hst
  obtain ⟨t, ht, honly, hshows⟩ := deliverAll_decodes bs fail hst
  refine ⟨t, ht, honly, ?_⟩
  cases hout : frameDecode s.par.text bs fail with
  | ok p | error c | wait =>
    rw [hout] at hshows
    exact hshows

/-- Header byte 1 of every frame `encode` builds has the mask bit 0 (R122, R126). -/
theorem frameEncode_byte1_lt {max : Config.EncMax} {p f : List Byte} (h : frameEncode max p = .ok f) :
    ∃ b0 b1 r, f = b0 :: b1 :: r ∧ b1.toNat < 128 := by
  rw [frameEncode_eq] at h
  split_ifs at h with hs hx
  · cases h
    exact ⟨_, _, _, rfl, by rw [BitVec.toNat_ofNat]; omega⟩
  · cases h
    exact ⟨_, _, _, rfl, by decide⟩

/-- Settles O46: `decode` refuses byte 1 without the mask bit, and the unit does what `decode` does. -/
theorem decoderRefusesTheEncodersFrames : Obligations.DecoderRefusesTheEncodersFrames := by
  intro s p f fail hf hst
  obtain ⟨b0, b1, r, rfl, hb⟩ := frameEncode_byte1_lt hf
  obtain ⟨t, ht, -, hshows⟩ := deliverAll_decodes (b0 :: b1 :: r) fail hst
  rw [frameDecode_unmasked _ _ _ _ hb] at hshows
  exact ⟨t, ht, hshows⟩

end Sys2Proof.Machine
end

section
/-! PROOFS. The step (10_state section 2, R87; log entries 1, 18 and 25): what each thing the environment presents makes the machine do,
and a frame through the transport. -/

namespace Sys2Proof.Machine

/-! What the host presents. -/

theorem step_event {s : State} {e : Event} {rest : List Stim} (h : s.env.inbox = .event e :: rest) :
    step s = exec (select s e) (s.withInbox rest) := by simp [step, fetch, h]

theorem step_wire_ok {s : State} {p : WirePos} {bs : List Byte} {i : Instr} {rest : List Stim}
    (h : s.env.inbox = .wire p bs :: rest) (hd : decode p bs = .ok i) : step s = exec i (s.withInbox rest) := by
  simp [step, fetch, fetchWire, h, hd]

theorem step_wire_error {s : State} {p : WirePos} {bs : List Byte} {e : DecodeError} {rest : List Stim}
    (h : s.env.inbox = .wire p bs :: rest) (hd : decode p bs = .error e) : step s = .refused (.badWire e) := by
  simp [step, fetch, fetchWire, h, hd]

theorem step_apply {s : State} {i : Instr} {rest : List Stim} (h : s.env.inbox = .apply i :: rest) :
    step s = exec i (s.withInbox rest) := by simp [step, fetch, h]

theorem step_edge {s : State} {p : PortsIn} {rest : List Stim} (h : s.env.inbox = .edge p :: rest) :
    step s = .next (s.withInbox ((edgeEvents s p).map Stim.event ++ rest)) := by simp [step, fetch, h]

theorem step_await_finished {s : State} {u : UnitId} {rest : List Stim} (h : s.env.inbox = .await u :: rest)
    (hu : s.unitFinished u = true) : step s = .next (s.withInbox rest) := by simp [step, fetch, h, hu]

/-! What moves while the host waits. -/

theorem fetch_of_hostWaits {s : State} (h : s.HostWaits) : fetch s = fetchFree s := by
  rcases h with h | ⟨u, rest, h, hu⟩
  · simp [fetch, h]
  · simp [fetch, h, hu]

theorem State.rxReady_ne_chk {s : State} (h : s.rxReady = true) : s.dec.st ≠ .chk := fun hst => by
  simp [State.rxReady, hst, DecSt.awaiting] at h

theorem step_check {s : State} (h : s.HostWaits) (hst : s.dec.st = .chk) : step s = exec .decCheck s := by
  simp [step, fetch_of_hostWaits h, fetchFree, hst, selectDec]

theorem step_rxByte {s : State} {b : Byte} {rx : List Byte} (h : s.HostWaits) (hr : s.rxReady = true) (hrx : s.env.rx = b :: rx) :
    step s = exec (select s (.dec (.rxByte b))) (s.withRx rx) := by
  simp [step, fetch_of_hostWaits h, fetchFree, State.rxReady_ne_chk hr, fetchRx, hr, hrx]

theorem step_rxFail {s : State} (h : s.HostWaits) (hr : s.rxReady = true) (hrx : s.env.rx = []) (hfail : s.env.rxFail = true) :
    step s = exec .decRxFail s := by
  have ha : s.dec.st.awaiting = true := hr
  simp [step, fetch_of_hostWaits h, fetchFree, State.rxReady_ne_chk hr, fetchRx, hr, hrx, hfail, selectDec, ha]

/-- Where the decoder cannot move, the encoder's stream is served. -/
theorem fetch_eq_fetchPl {s : State} (h : s.HostWaits) (hst : s.dec.st ≠ .chk)
    (hrx : s.rxReady = true → s.env.rx = [] ∧ s.env.rxFail = false) : fetch s = fetchPl s := by
  rw [fetch_of_hostWaits h, fetchFree, if_neg hst, fetchRx]
  split
  · obtain ⟨hnil, hfail⟩ := hrx ‹_›
    simp [hnil, hfail]
  · rfl

theorem step_plByte {s : State} {b : Byte} {pl : List Byte} (h : s.HostWaits) (hst : s.dec.st ≠ .chk)
    (hrx : s.rxReady = true → s.env.rx = [] ∧ s.env.rxFail = false) (hp : s.plReady = true) (hpl : s.env.pl = b :: pl) :
    step s = exec (.encPay b) (s.withPl pl) := by
  have hpay : s.enc.st = .pay := of_decide_eq_true hp
  simp [step, fetch_eq_fetchPl h hst hrx, fetchPl, hp, hpl, selectEnc, hpay]

theorem step_waits {s : State} (h : s.HostWaits) (hst : s.dec.st ≠ .chk)
    (hrx : s.rxReady = true → s.env.rx = [] ∧ s.env.rxFail = false) (hpl : s.plReady = true → s.env.pl = []) :
    step s = .next s := by
  have hpass : fetchPl s = .pass s := by
    unfold fetchPl
    split
    · rw [hpl ‹_›]
    · rfl
  simp [step, fetch_eq_fetchPl h hst hrx, hpass]

/-- Settles O6: by what the environment presents. -/
theorem stepRunsTheDecodedRow : Obligations.StepRunsTheDecodedRow :=
  fun _ => ⟨fun _ _ h => step_event h, fun _ _ _ _ h hd => step_wire_ok h hd, fun _ _ _ _ h hd => step_wire_error h hd,
    fun _ _ h => step_apply h, fun _ _ h => step_edge h, fun _ _ h hu => step_await_finished h hu, step_check,
    fun _ _ h hr hrx => step_rxByte h hr hrx, step_rxFail, fun _ _ h hst hrx hp hpl => step_plByte h hst hrx hp hpl, step_waits⟩

/-! Runs. -/

theorem coreRun_succ {M : Host.Core} {s t : M.State} (k : Nat) (h : M.step s = .next t) : M.run (k + 1) s = M.run k t := by
  rw [Host.Core.run, h]

theorem run_succ_of_step {s t : State} (k : Nat) (h : step s = .next t) :
    Host.Core.run core (k + 1) s = Host.Core.run core k t := coreRun_succ (M := core) k h

theorem run_of_step_self {s : State} (k : Nat) (h : step s = .next s) : Host.Core.run core k s = .next s := by
  induction k with
  | zero => rfl
  | succ k ih => rw [run_succ_of_step k h, ih]

/-- While the unit awaits bytes and the host does nothing, the machine feeds it from `RX`, a byte a step. -/
theorem run_feed {s : State} (bs after : List Byte) (k : Nat) (hin : s.env.inbox = []) (hrx : s.env.rx = bs ++ after)
    (hdue : s.dec.ByteDue) (hawait : ∀ j, j < bs.length → (s.dec.feed (bs.take j)).st.awaiting = true) :
    Host.Core.run core (bs.length + k) s = Host.Core.run core k ((s.withRx after).withDec (s.dec.feed bs)) := by
  induction bs generalizing s with
  | nil =>
    obtain rfl : s.env.rx = after := hrx
    rw [List.length_nil, Nat.zero_add]
    rfl
  | cons b bs ih =>
    have hstep : step s = .next ((s.withRx (bs ++ after)).withDec (s.dec.takeByte b)) :=
      (step_rxByte (.inl hin) (hawait 0 (Nat.succ_pos _)) hrx).trans
        (deliver_rxByte (s := s.withRx (bs ++ after)) b hdue.idx_lt_cap)
    rw [List.length_cons, Nat.add_right_comm, run_succ_of_step _ hstep]
    exact ih hin rfl (hdue.takeByte b) fun j hj => hawait (j + 1) (Nat.succ_lt_succ hj)

/-! A client frame through the transport. -/

theorem Dec.ReadsTo.awaiting {d : Dec} {out : Config.TextRule → Bool → FrameOutcome} (h : d.ReadsTo out)
    (hout : out .standard false = .wait) : d.st.awaiting = true := by
  cases h with
  | awaits hst => exact hst
  | refuses hst herr h =>
    rw [h] at hout
    cases hout
  | completes p hst hp h =>
    rw [h, verdict] at hout
    split at hout <;> cases hout

/-- A unit that has read what is decided by the text alone is due for the check. -/
theorem Dec.ReadsTo.check {d : Dec} {out : Config.TextRule → Bool → FrameOutcome} {p : List Byte} (h : d.ReadsTo out)
    (hout : ∀ rule fail, out rule fail = verdict rule p) :
    d.st = .chk ∧ ∀ rule, (d.check rule).Shows (verdict rule p) := by
  cases h with
  | awaits hst h =>
    have hfail := (h .standard false).symm.trans (hout .standard false)
    rw [verdict] at hfail
    split at hfail <;> cases hfail
  | refuses hst herr h =>
    have hcode := (h .standard false).symm.trans (hout .standard false)
    rw [verdict] at hcode
    split at hcode
    · cases hcode
    · exact absurd (FrameOutcome.error.inj hcode) herr
  | completes q hst hq h =>
    refine ⟨hst, fun rule => ?_⟩
    rw [← hout rule false, h rule false]
    exact hq.check_shows rule

/-- Settles O35: every proper part of the frame from its start leaves the unit awaiting a byte, the whole
frame leaves it in `D_CHK`. -/
theorem frameIsTakenFromTheTransportAndNoMore : Obligations.FrameIsTakenFromTheTransportAndNoMore := by
  intro s b0 key p after frame hin hst hp hframe hrx
  have h : IsClientFrame b0 key p frame := ⟨hp, hframe⟩
  have hawait : ∀ j, j < frame.length → (s.dec.feed (frame.take j)).st.awaiting = true := fun j hj =>
    (Dec.feed_frame _ hst).awaiting (h.frameDecode_take _ _ hj)
  have hwhole : ∀ rule fail, frameDecode rule frame fail = verdict rule p := fun rule fail => by
    rw [← h.frameDecode rule [] fail, List.append_nil]
  obtain ⟨hchk, hshows⟩ := (Dec.feed_frame frame hst).check hwhole
  have hcheck : step ((s.withRx after).withDec (s.dec.feed frame)) =
      .next ((s.withRx after).withDec ((s.dec.feed frame).check s.par.text)) := by
    rw [step_check (s := (s.withRx after).withDec (s.dec.feed frame)) (.inl hin) hchk, exec_decCheck, withDec_dec,
      decide_eq_true hchk]
    rfl
  refine ⟨_, (run_feed frame after 1 hin hrx (.of_st_ne (by simp [hst])) hawait).trans (run_succ_of_step 0 hcheck), rfl, rfl,
    fun hv => ?_, fun hv => ?_⟩
  all_goals
    have hshown := hshows s.par.text
    rw [verdict, hv] at hshown
    exact hshown

/-- Settles O36: two bytes lead to `D_ERR`, where the machine waits for ever. -/
theorem refusedHeaderEndsTheReading : Obligations.RefusedHeaderEndsTheReading := by
  intro s b0 b1 after k hin hst henc hrx hb1
  have hfeed : s.dec.feed [b0, b1] = s.dec.takeByte0.takeByte b1 := by
    rw [Dec.feed_cons, Dec.takeByte_b0 b0 hst]
    rfl
  have hawait : ∀ j, j < [b0, b1].length → (s.dec.feed ([b0, b1].take j)).st.awaiting = true := by
    intro j hj
    match j, hj with
    | 0, _ => simp [hst, DecSt.awaiting]
    | 1, _ => simp [Dec.takeByte_b0 b0 hst, DecSt.awaiting]
  have herr : (s.dec.feed [b0, b1]).st = .err ∧
      (s.dec.feed [b0, b1]).err = if b1.toNat < 128 then .unmaskedFrame else .unsupportedFrameSize := by
    rw [hfeed]
    obtain hb | rfl := hb1
    · rw [Dec.takeByte_unmasked rfl hb, if_pos hb]
      exact ⟨rfl, rfl⟩
    · rw [Dec.takeByte_ext64 rfl]
      exact ⟨rfl, rfl⟩
  have hwait (d : Dec) (hd : d.st = .err) : step ((s.withRx after).withDec d) = .next ((s.withRx after).withDec d) := by
    refine step_waits (.inl hin) (by simp [hd]) (fun hr => ?_) fun hp => absurd (of_decide_eq_true hp) henc
    simp [State.rxReady, hd] at hr
  exact ⟨_, (run_feed [b0, b1] after k hin hrx (.of_st_ne (by simp [hst])) hawait).trans (run_of_step_self k (hwait _ herr.1)),
    rfl, herr⟩

end Sys2Proof.Machine
end

section
/-! PROOFS. The encoder unit refines `encode` (42_frame_encoder section 3): the header an invocation writes, the payload bytes stored
behind it, and the finished frame. -/

namespace Sys2Proof.Machine

/-- `ENC_BUF[0..ENC_TOT)` is `f`. -/
def Enc.Holds (e : Enc) (f : List Byte) : Prop :=
  e.tot.toNat = f.length ∧ ∀ i (h : i < f.length), Memory.read e.buf i = some f[i]

/-- What the host sees of a unit that has done what `encode` gives; `encode` never waits. -/
def Enc.Shows (e : Enc) : FrameOutcome → Prop
  | .ok f => e.st = .done ∧ e.Holds f
  | .error c => e.st = .err ∧ e.err = c ∧ e.tot = 0
  | .wait => False

/-- The bytes of the frame stored so far. -/
def Enc.Stored (e : Enc) (pre : List Byte) : Prop :=
  e.payAddr = pre.length ∧ ∀ i (h : i < pre.length), Memory.read e.buf i = some pre[i]

/-- Payload bytes that are not awaited change nothing (R195). -/
theorem deliverAll_plEvents_of_not_pay {s : State} (p : List Byte) (h : s.enc.st ≠ .pay) :
    deliverAll (plEvents p) s = .next s := by
  induction p with
  | nil => rfl
  | cons b p ih =>
    have hskip : deliver (.enc (.plByte b)) s = .next s := by simp [selectEnc, h]
    exact (deliverAll_cons_next hskip).trans ih

/-- A payload byte stored behind the others. -/
theorem Enc.Stored.storePayload {e : Enc} {pre : List Byte} (h : e.Stored pre) (b : Byte) (hidx : e.idx.toNat < e.n.toNat) :
    (e.storePayload b).Stored (pre ++ [b]) := by
  obtain ⟨haddr, hread⟩ := h
  refine ⟨?_, ?_⟩
  · show e.hlen.toNat + (e.idx + 1).toNat = _
    rw [Enc.idx_succ_toNat hidx, ← Nat.add_assoc, List.length_append, ← haddr]
    rfl
  · rw [Enc.storePayload, haddr]
    exact Memory.read_write_append b hread

/-- The payload, by induction on its bytes: each is stored behind the others, the last one completes the frame (R194). -/
theorem deliverAll_plEvents {s : State} {pre : List Byte} (b : Byte) (q : List Byte) (hst : s.enc.st = .pay)
    (hpre : s.enc.Stored pre) (hn : s.enc.n.toNat = s.enc.idx.toNat + (q.length + 1))
    (hfit : s.enc.hlen.toNat + s.enc.n.toNat ≤ Config.encCap s.par.encMax) :
    ∃ t, deliverAll (plEvents (b :: q)) s = .next t ∧ OnlyEnc s t ∧ t.enc.st = .done ∧ t.enc.Holds (pre ++ b :: q) := by
  have hidx : s.enc.idx.toNat < s.enc.n.toNat := by omega
  have haddr : s.enc.payAddr < Config.encCap s.par.encMax := by
    rw [Enc.payAddr]
    omega
  have hnext : deliver (.enc (.plByte b)) s = .next (s.withEnc (s.enc.takePayload b)) := by
    rw [deliver_plByte b fun _ => haddr, Enc.onEvent, if_pos hst]
  have hstored := hpre.storePayload b hidx
  have hcases := s.enc.takePayload_cases b
  rw [ne_eq, Enc.idx_succ_eq_n_iff hidx] at hcases
  cases q with
  | nil =>
    obtain ⟨-, he⟩ | ⟨hnot, -⟩ := hcases
    · refine ⟨_, deliverAll_cons_next hnext, onlyEnc_withEnc _ _, ?_⟩
      rw [withEnc_enc, he]
      refine ⟨rfl, ?_, hstored.2⟩
      show (s.enc.hlen.setWidth 17 + s.enc.n).toNat = _
      rw [tot_toNat hfit, hn, List.length_append, ← hpre.1, Enc.payAddr]
      exact (Nat.add_assoc _ _ _).symm
    · exact absurd hn.symm hnot
  | cons b' q =>
    rw [List.length_cons] at hn
    obtain ⟨hlast, -⟩ | ⟨-, he⟩ := hcases
    · omega
    · rw [he] at hnext
      have hn' : s.enc.n.toNat = (s.enc.idx + 1).toNat + (q.length + 1) := by
        rw [Enc.idx_succ_toNat hidx]
        omega
      obtain ⟨t, ht, honly, hdone⟩ := deliverAll_plEvents (s := s.withEnc (s.enc.storePayload b)) b' q hst hstored hn' hfit
      rw [List.append_assoc] at hdone
      exact ⟨t, (deliverAll_cons_next hnext).trans ht, honly, hdone⟩
termination_by q.length

/-! The header (R191, R192). -/

theorem Enc.startShort_stored {n : Nat} (e : Enc) : (e.startShort n).Stored [0x81, lo8 n] := by
  refine ⟨rfl, fun i hi => ?_⟩
  match i, hi with
  | 0, _ => rfl
  | 1, _ => rfl

theorem Enc.startExt16_stored {n : Nat} (e : Enc) : (e.startExt16 n).Stored [0x81, 0x7E, hi8 n, lo8 n] := by
  refine ⟨rfl, fun i hi => ?_⟩
  match i, hi with
  | 0, _ => rfl
  | 1, _ => rfl
  | 2, _ => rfl
  | 3, _ => rfl

/-- A header and the whole payload behind it. -/
theorem deliverAll_plEvents_after_header {s : State} {p pre : List Byte} (hp : p ≠ []) (hst : s.enc.st = .pay)
    (hpre : s.enc.Stored pre) (hn : s.enc.n.toNat = p.length) (hidx : s.enc.idx = 0) (hhlen : s.enc.hlen.toNat ≤ 4)
    (hmax : p.length ≤ s.par.encMax.val) :
    ∃ t, deliverAll (plEvents p) s = .next t ∧ OnlyEnc s t ∧ t.enc.Shows (.ok (pre ++ p)) := by
  match p, hp with
  | b :: q, _ =>
    refine deliverAll_plEvents b q hst hpre ?_ ?_
    · rw [hidx, hn]
      exact (Nat.zero_add _).symm
    · rw [Config.encCap]
      omega

/-- Settles O45: by the length's class; a header is followed by the payload, a refusal by nothing. -/
theorem encoderRefinesEncode : Obligations.EncoderRefinesEncode := by
  intro s p hst
  suffices h : ∃ t, deliverAll (plEvents p) (s.withEnc (s.enc.invoke s.par.encMax p.length)) = .next t ∧ OnlyEnc s t ∧
      t.enc.Shows (frameEncode s.par.encMax p) by
    obtain ⟨t, ht, honly, hshows⟩ := h
    have hinvoke := deliver_invoke_next p.length s
    rw [Enc.onEvent, if_pos ((EncSt.accepts_iff _).mpr hst)] at hinvoke
    refine ⟨t, (deliverAll_cons_next hinvoke).trans ht, honly, ?_⟩
    cases hout : frameEncode s.par.encMax p with
    | ok f | error c | wait =>
      rw [hout] at hshows
      exact hshows
  obtain ⟨hmax, -⟩ := encMax_bounds s.par.encMax
  rw [frameEncode_eq]
  obtain ⟨hn, he⟩ | ⟨hn, hle, he⟩ | ⟨hn, he⟩ := s.enc.invoke_cases s.par.encMax p.length
  all_goals rw [he]
  · rw [if_pos hn]
    by_cases hp : p = []
    · subst hp
      exact ⟨_, rfl, onlyEnc_withEnc _ _, rfl, rfl, s.enc.startShort_stored.2⟩
    · have hpay : (s.enc.startShort p.length).st = .pay := if_neg fun h0 => hp (List.eq_nil_of_length_eq_zero h0)
      exact deliverAll_plEvents_after_header hp hpay s.enc.startShort_stored
        (toNat_ofNat_of_le_encMax (max := s.par.encMax) (by omega)) rfl
        (show 2 ≤ 4 by decide) (show p.length ≤ s.par.encMax.val by omega)
  · rw [if_neg (by omega), if_pos hle]
    exact deliverAll_plEvents_after_header (by rintro rfl; simp at hn) rfl s.enc.startExt16_stored
      (toNat_ofNat_of_le_encMax hle) rfl (show 4 ≤ 4 by decide) hle
  · rw [if_neg (by omega), if_neg (by omega)]
    exact ⟨_, deliverAll_plEvents_of_not_pay p nofun, onlyEnc_withEnc _ _, rfl, rfl, rfl⟩

end Sys2Proof.Machine
end

section
/-! PROOFS. The default text check (43_text_check, R211): the one pass, group by group by the first row that matches, accepts exactly
the concatenations of groups of the table. -/

namespace Sys2Proof.Machine

/-- A row matches at the head where the bytes begin with a group of the row. -/
theorem matchRow_eq_some_iff {row : List (Nat × Nat)} {bs rest : List Byte} :
    matchRow row bs = some rest ↔ ∃ g, bs = g ++ rest ∧ RowMatches row g := by
  induction row generalizing bs with
  | nil =>
    rw [matchRow, Option.some_inj]
    exact ⟨fun h => ⟨[], h, .nil⟩, fun ⟨g, h, hg⟩ => by cases hg; exact h⟩
  | cons r row ih =>
    cases bs with
    | nil =>
      refine ⟨nofun, fun ⟨g, h, hg⟩ => ?_⟩
      cases hg
      cases h
    | cons b bs =>
      rw [matchRow]
      split
      · rename_i hr
        rw [ih]
        refine ⟨fun ⟨g, h, hg⟩ => ⟨b :: g, congrArg (b :: ·) h, .cons hr hg⟩, fun ⟨g, h, hg⟩ => ?_⟩
        cases hg with
        | cons hb hg =>
          obtain ⟨rfl, rfl⟩ := List.cons.inj h
          exact ⟨_, rfl, hg⟩
      · rename_i hr
        refine ⟨nofun, fun ⟨g, h, hg⟩ => ?_⟩
        cases hg with
        | cons hb hg =>
          obtain ⟨rfl, -⟩ := List.cons.inj h
          exact absurd hb hr

/-- No byte is in the first range of both rows. -/
def headsApart : List (Nat × Nat) → List (Nat × Nat) → Bool
  | x :: _, y :: _ => decide (x.2 < y.1 ∨ y.2 < x.1)
  | [], _ => false
  | _ :: _, [] => false

theorem utf8Rows_headsApart : utf8Rows.Pairwise fun row row' => headsApart row row' = true := by decide

theorem matchRow_head {x : Nat × Nat} {row : List (Nat × Nat)} {bs rest : List Byte} (h : matchRow (x :: row) bs = some rest) :
    ∃ b ∈ bs.head?, x.1 ≤ b.toNat ∧ b.toNat ≤ x.2 := by
  obtain ⟨g, rfl, hg⟩ := matchRow_eq_some_iff.mp h
  cases hg with
  | cons hb hg => exact ⟨_, rfl, hb⟩

/-- The first byte decides between two rows of the table. -/
theorem not_matchRow_of_headsApart {row row' : List (Nat × Nat)} {bs rest rest' : List Byte} (h : headsApart row row' = true)
    (hrow : matchRow row bs = some rest) : matchRow row' bs ≠ some rest' := by
  intro hrow'
  match row, row', h with
  | x :: _, y :: _, h =>
    obtain ⟨b, hb, hx⟩ := matchRow_head hrow
    obtain ⟨b', hb', hy⟩ := matchRow_head hrow'
    obtain rfl : b = b' := Option.some_inj.mp (hb.symm.trans hb')
    have hapart := of_decide_eq_true h
    omega

/-- The first row that matches is the only one. -/
theorem matchGroup_eq_some_iff {rows : List (List (Nat × Nat))} (hrows : rows.Pairwise fun row row' => headsApart row row' = true)
    {bs rest : List Byte} : matchGroup rows bs = some rest ↔ ∃ row ∈ rows, matchRow row bs = some rest := by
  induction rows with
  | nil => simp [matchGroup]
  | cons row more ih =>
    obtain ⟨hrow, hmore⟩ := List.pairwise_cons.mp hrows
    rw [matchGroup, List.exists_mem_cons_iff]
    cases hm : matchRow row bs with
    | none => simp only [ih hmore, reduceCtorEq, false_or]
    | some r =>
      refine ⟨.inl, fun h => h.resolve_right fun ⟨row', hmem, hrow'⟩ => ?_⟩
      exact not_matchRow_of_headsApart (hrow row' hmem) hm hrow'

/-- A concatenation of groups of the table. -/
def TableText (p : List Byte) : Prop :=
  ∃ gs : List (List Byte), p = gs.flatten ∧ ∀ g ∈ gs, ∃ row ∈ utf8Rows, RowMatches row g

theorem tableText_nil : TableText [] := ⟨[], rfl, nofun⟩

/-- No group of the table is empty. -/
theorem RowMatches.ne_nil {row : List (Nat × Nat)} {g : List Byte} (hrow : row ∈ utf8Rows) (h : RowMatches row g) : g ≠ [] := by
  have hne : ∀ row ∈ utf8Rows, row ≠ [] := by decide
  rintro rfl
  cases h
  exact hne _ hrow rfl

/-- A group takes a byte at least. -/
theorem length_lt_of_matchGroup {p rest : List Byte} (h : matchGroup utf8Rows p = some rest) : rest.length < p.length := by
  obtain ⟨row, hmem, hrow⟩ := (matchGroup_eq_some_iff utf8Rows_headsApart).mp h
  obtain ⟨g, rfl, hg⟩ := matchRow_eq_some_iff.mp hrow
  have hpos := List.length_pos_iff.mpr (hg.ne_nil hmem)
  rw [List.length_append]
  omega

/-- A text that is not empty is a first group and a text after it. -/
theorem tableText_iff_matchGroup {p : List Byte} (hp : p ≠ []) :
    TableText p ↔ ∃ rest, matchGroup utf8Rows p = some rest ∧ TableText rest := by
  simp only [matchGroup_eq_some_iff utf8Rows_headsApart, matchRow_eq_some_iff]
  refine ⟨fun ⟨gs, hflat, hgs⟩ => ?_, fun ⟨rest, ⟨row, hmem, g, hsplit, hg⟩, gs, hflat, hgs⟩ => ?_⟩
  · cases gs with
    | nil => exact absurd hflat hp
    | cons g gs =>
      obtain ⟨⟨row, hmem, hg⟩, hgs⟩ := List.forall_mem_cons.mp hgs
      exact ⟨gs.flatten, ⟨row, hmem, g, hflat, hg⟩, gs, rfl, hgs⟩
  · refine ⟨g :: gs, ?_, List.forall_mem_cons.mpr ⟨⟨row, hmem, hg⟩, hgs⟩⟩
    rw [hsplit, hflat, List.flatten_cons]

/-- The pass, by induction on the groups it may still take. -/
theorem utf8Groups_iff {fuel : Nat} {p : List Byte} (h : p.length ≤ fuel) : utf8Groups fuel p = true ↔ TableText p := by
  induction fuel generalizing p with
  | zero =>
    obtain rfl := List.eq_nil_of_length_eq_zero (Nat.le_zero.mp h)
    exact iff_of_true rfl tableText_nil
  | succ fuel ih =>
    cases p with
    | nil => exact iff_of_true rfl tableText_nil
    | cons b bs =>
      rw [utf8Groups, tableText_iff_matchGroup (List.cons_ne_nil b bs)]
      cases hm : matchGroup utf8Rows (b :: bs) with
      | none => simp
      | some rest =>
        have hlt := length_lt_of_matchGroup hm
        simp only [Option.some_inj, exists_eq_left']
        exact ih (by omega)

/-- Settles O14: the pass may take as many groups as there are bytes. -/
theorem defaultTextCheckIsTheTable : Obligations.DefaultTextCheckIsTheTable :=
  fun _ => utf8Groups_iff le_rfl

end Sys2Proof.Machine
end

section
/-! PROOFS. The status lines, the ports and the clock edge (10_state R31 to R34, R51), and the rows outside their conditions (log
entries 10, 15 and 16). -/

namespace Sys2Proof.Machine

/-! The status lines, each by the sequencer's state. -/

theorem State.rxReady_iff (s : State) : s.rxReady = true ↔ s.dec.st ∈ [DecSt.b0, .b1, .xh, .xl, .key, .pay] :=
  DecSt.awaiting_iff s.dec.st

theorem State.decBusy_iff (s : State) : s.decBusy = true ↔ s.dec.st ∉ [DecSt.idle, .done, .err] := by simp [State.decBusy]

theorem State.decDone_iff (s : State) : s.decDone = true ↔ s.dec.st = .done := decide_eq_true_iff

theorem State.decErr_iff (s : State) : s.decErr = true ↔ s.dec.st = .err := decide_eq_true_iff

theorem State.plReady_iff (s : State) : s.plReady = true ↔ s.enc.st = .pay := decide_eq_true_iff

theorem State.encBusy_iff (s : State) : s.encBusy = true ↔ s.enc.st = .pay := decide_eq_true_iff

theorem State.encDone_iff (s : State) : s.encDone = true ↔ s.enc.st = .done := decide_eq_true_iff

theorem State.encErr_iff (s : State) : s.encErr = true ↔ s.enc.st = .err := decide_eq_true_iff

theorem State.fatal_iff (s : State) : s.fatal = true ↔ s.dec.st = .err ∨ s.enc.st = .err := by
  rw [State.fatal, Bool.or_eq_true, State.decErr_iff, State.encErr_iff]

/-- Of busy, done and error of the decoder at most one is 1, none exactly in `D_IDLE`. -/
theorem State.decStatus_exclusive (s : State) :
    ((s.decBusy = false ∧ s.decDone = false ∧ s.decErr = false) ↔ s.dec.st = .idle) ∧
    ¬(s.decBusy = true ∧ s.decDone = true) ∧ ¬(s.decBusy = true ∧ s.decErr = true) ∧ ¬(s.decDone = true ∧ s.decErr = true) := by
  simp only [← Bool.not_eq_true, State.decBusy_iff, State.decDone_iff, State.decErr_iff]
  cases s.dec.st <;> decide

/-- The same for the encoder and `E_IDLE`. -/
theorem State.encStatus_exclusive (s : State) :
    ((s.encBusy = false ∧ s.encDone = false ∧ s.encErr = false) ↔ s.enc.st = .idle) ∧
    ¬(s.encBusy = true ∧ s.encDone = true) ∧ ¬(s.encBusy = true ∧ s.encErr = true) ∧ ¬(s.encDone = true ∧ s.encErr = true) := by
  simp only [← Bool.not_eq_true, State.encBusy_iff, State.encDone_iff, State.encErr_iff]
  cases s.enc.st <;> decide

theorem portsOut_decoder_data {s : State} (a : BitVec 16) (i : BitVec 17) (hst : s.dec.st = .done) :
    (portsOut s a i).decLen = some s.dec.len ∧
      (a.toNat < s.dec.len.toNat → (portsOut s a i).decRdData = Memory.read s.dec.buf a.toNat) := by
  refine ⟨if_pos ((State.decDone_iff s).mpr hst), fun h => if_pos ?_⟩
  exact decide_eq_true ⟨hst, h⟩

theorem portsOut_encoder_data {s : State} (a : BitVec 16) (i : BitVec 17) (hst : s.enc.st = .done) (h : i.toNat < s.enc.tot.toNat) :
    (portsOut s a i).encRdData = Memory.read s.enc.buf i.toNat := if_pos (decide_eq_true ⟨hst, h⟩)

/-- Settles O58: line by line. -/
theorem statusLinesAreExclusive : Obligations.StatusLinesAreExclusive := by
  intro s
  obtain ⟨hdec, hbusyDone, hbusyErr, hdoneErr⟩ := s.decStatus_exclusive
  obtain ⟨henc, hbusyDone', hbusyErr', hdoneErr'⟩ := s.encStatus_exclusive
  exact ⟨hdec, hbusyDone, hbusyErr, hdoneErr, henc, hbusyDone', hbusyErr', hdoneErr', s.rxReady_iff, s.decBusy_iff, s.decDone_iff,
    s.decErr_iff, s.plReady_iff, s.encBusy_iff, s.encDone_iff, s.encErr_iff, s.fatal_iff, rfl,
    fun a i => ⟨_, rfl, rfl, rfl, rfl, rfl, rfl, rfl, rfl, rfl, rfl, rfl, rfl, rfl, portsOut_decoder_data a i,
      portsOut_encoder_data a i⟩⟩

/-! The events of an edge (R34). -/

theorem mem_edgeEvents {s : State} {p : PortsIn} (h : p.rst = false) (e : Event) :
    e ∈ edgeEvents s p ↔ e ∈ edgeDecEvents s p ∨ e ∈ edgeEncEvents s p := by
  rw [edgeEvents, h, if_neg Bool.false_ne_true, List.mem_append]

/-- The decoder's part: the invocation, and one of the byte, the failure and the check, in this order of precedence. -/
theorem mem_edgeDecEvents {s : State} {p : PortsIn} {e : Event} : e ∈ edgeDecEvents s p ↔
    (p.decInvoke = true ∧ e = .dec .invoke) ∨
    (s.rxReady = true ∧ p.rxValid = true ∧ e = .dec (.rxByte p.rxData)) ∨
    (s.rxReady = true ∧ p.rxValid = false ∧ p.rxFail = true ∧ e = .dec .rxFail) ∨
    (s.dec.st = .chk ∧ e = .dec .check) := by
  have hchk : s.dec.st = .chk → s.rxReady = false := fun h => by simp [State.rxReady, DecSt.awaiting, h]
  rw [edgeDecEvents, List.mem_append]
  refine or_congr (by split <;> simp [*]) ?_
  by_cases hst : s.dec.st = .chk
  · simp [hchk hst, hst]
  · cases hr : s.rxReady
    · simp [hst]
    · cases hv : p.rxValid
      · cases hf : p.rxFail <;> simp [hst]
      · simp [hst]

theorem mem_edgeEncEvents {s : State} {p : PortsIn} {e : Event} : e ∈ edgeEncEvents s p ↔
    (p.encInvoke = true ∧ e = .enc (.invoke p.encN)) ∨ (s.plReady = true ∧ p.plValid = true ∧ e = .enc (.plByte p.plData)) := by
  rw [edgeEncEvents, List.mem_append]
  refine or_congr (by split <;> simp [*]) ?_
  cases s.plReady <;> cases p.plValid <;> simp

theorem deliver_decInvoke_ignored {s : State} (h : s.dec.st.accepts = false) : deliver (.dec .invoke) s = .next s := by
  simp [selectDec, h]

theorem deliver_encInvoke_ignored {s : State} (n : Nat) (h : s.enc.st.accepts = false) :
    deliver (.enc (.invoke n)) s = .next s := by simp [selectEnc, h]

/-- Settles O59: each event stands in one part of the edge, under its condition. -/
theorem edgeCarriesItsEvents : Obligations.EdgeCarriesItsEvents := by
  intro s p
  refine ⟨fun h => if_pos h, fun h => ?_, fun h => deliver_decInvoke_ignored ?_, fun n h => deliver_encInvoke_ignored n ?_⟩
  · simp only [mem_edgeEvents h, mem_edgeDecEvents, mem_edgeEncEvents]
    simp
  · simp only [State.rxReady_iff, List.mem_cons, List.not_mem_nil, or_false] at h
    rcases h with (h | h | h | h | h | h) | h <;> rw [h] <;> rfl
  · rw [(State.plReady_iff s).mp h]
    rfl

/-! Rows outside their conditions. -/

theorem exec_decPay_of_st_ne {s : State} (b : Byte) (h : s.dec.st ≠ .pay) : exec (.decPay b) s = .next s := by
  rw [exec_decPay_of_lt_len b fun hst => absurd hst h, decide_eq_false h, decRow_false]

theorem exec_encPay_of_st_ne {s : State} (b : Byte) (h : s.enc.st ≠ .pay) : exec (.encPay b) s = .next s := by
  have hrow : exec (.encPay b) s = encRow (decide (s.enc.st = .pay)) (s.enc.takePayload b) s := if_neg fun hc => h hc.1
  rw [hrow, decide_eq_false h, encRow_false]

/-- The short row does not fire outside 0x80 to 0xFD (R164). -/
theorem not_maskbit_and_isInline {b : Byte} (h : b.toNat < 0x80 ∨ 0xFD < b.toNat) : (maskbit b && isInline (mark7 b)) = false := by
  rw [← Bool.not_eq_true, Bool.and_eq_true, maskbit_iff, isInline_iff]
  rintro ⟨hb, hm⟩
  rw [mark7_toNat hb] at hm
  omega

/-- Settles O60: the condition of each row fails, or the index is past the buffer. -/
theorem rowsOutsideTheirConditions : Obligations.RowsOutsideTheirConditions := by
  intro s b m n
  refine ⟨fun h => ?_, fun h => ?_, fun h => ?_, fun h => ?_, fun h => ?_, exec_decPay_of_st_ne b, fun h => ?_, fun h => ?_,
    fun h => ?_, exec_encPay_of_st_ne b, fun h => ?_, fun h => ?_, fun h => ?_, fun h => ?_, fun h => ?_, fun h => ?_, fun h => ?_,
    fun d e => ⟨rfl, rfl⟩, fun h => ⟨_, rfl⟩, fun hst h => if_pos ⟨hst, h⟩, fun hst h => if_pos ⟨hst, h⟩⟩
  · simp [h]
  · simp [h]
  · simp [h]
  · simp [h]
  · simp [h]
  · have ha : s.dec.st.awaiting = false := h
    simp [ha]
  · simp [h]
  · simp [exec_sfShort, exec_sfExt16, exec_sfTooLarge, (EncSt.not_accepts_iff _).mpr h]
  · simp [(maskbit_iff b).mpr h]
  · have hm : maskbit b = false := by rw [← Bool.not_eq_true, maskbit_iff]; omega
    simp [hm]
  · rw [exec_decB1Short, Bool.and_assoc, not_maskbit_and_isInline h, Bool.and_false, decRow_false]
  · have hi : isInline m = false := by rw [← Bool.not_eq_true, isInline_iff]; omega
    have hn : fitsShort m.toNat = false := by rw [← Bool.not_eq_true, fitsShort_iff]; omega
    simp [exec_sfShort, hi, hn]
  · have hn : fitsShort n = false := by rw [← Bool.not_eq_true, fitsShort_iff]; omega
    simp [hn]
  · have hn : fitsExt16 s.par.encMax n = false := by rw [← Bool.not_eq_true, fitsExt16_iff]; omega
    simp [exec_sfExt16, hn]
  · have hn : tooLarge s.par.encMax n = false := by rw [← Bool.not_eq_true, tooLarge_iff]; omega
    simp [exec_sfTooLarge, hn]

end Sys2Proof.Machine
end

section
/-! PROOFS. The validity windows (00_scope section 4, 10_state R36 to R50): what two units that look alike share in each state, and that
every event and every read leads them to units that look alike. -/

namespace Sys2Proof.Machine

/-! Bytes inside a window. -/

theorem firstBytes_eq_iff {m m' : Memory} {k : Nat} :
    firstBytes m k = firstBytes m' k ↔ ∀ i < k, Memory.read m i = Memory.read m' i := by
  simp [firstBytes]

/-- A byte written behind a window joins it. -/
theorem firstBytes_write {m m' : Memory} {k : Nat} (v : Byte) (h : firstBytes m k = firstBytes m' k) :
    firstBytes (Memory.write m k v) (k + 1) = firstBytes (Memory.write m' k v) (k + 1) := by
  rw [firstBytes_eq_iff] at h ⊢
  intro i hi
  obtain hlt | rfl := Nat.lt_succ_iff_lt_or_eq.mp hi
  · rw [Memory.read_write_other _ _ hlt.ne, Memory.read_write_other _ _ hlt.ne, h i hlt]
  · rw [Memory.read_write_same, Memory.read_write_same]

theorem Dec.payload_congr {d u : Dec} (hlen : d.len = u.len) (h : firstBytes d.buf d.len.toNat = firstBytes u.buf u.len.toNat) :
    d.payload = u.payload := by
  rw [hlen, firstBytes_eq_iff] at h
  rw [Dec.payload, Dec.payload, hlen]
  exact List.map_congr_left fun i hi => by rw [h i (List.mem_range.mp hi)]

/-! What of the decoder is seen in each state. -/

/-- What is seen in every state beside the sequencer. -/
def Dec.SameOpen (d u : Dec) : Prop := d.err = u.err ∧ d.free = u.free ∧ d.rd = u.rd

/-- `DEC_MARK` and `DEC_LEN` (R37, R38). -/
def Dec.SameLength (d u : Dec) : Prop := d.mark = u.mark ∧ d.lenHi = u.lenHi ∧ d.lenLo = u.lenLo

theorem Dec.SameLength.len_eq {d u : Dec} (h : d.SameLength u) : d.len = u.len := by
  obtain ⟨-, hhi, hlo⟩ := h
  rw [Dec.len, Dec.len, hhi, hlo]

theorem Dec.st_eq_of_view {d u : Dec} (h : d.view = u.view) : u.st = d.st := (congrArg DecView.st h).symm

theorem Dec.sameOpen_of_view {d u : Dec} (h : d.view = u.view) : d.SameOpen u :=
  ⟨congrArg DecView.err h, congrArg DecView.free h, congrArg DecView.rd h⟩

theorem Dec.view_eq_iff_of_b0 {d u : Dec} (hd : d.st = .b0) (hu : u.st = .b0) : d.view = u.view ↔ d.SameOpen u := by
  simp [Dec.view, valid, Dec.markKept, Dec.lenKept, Dec.SameOpen, hd, hu]

theorem Dec.view_eq_iff_of_b1 {d u : Dec} (hd : d.st = .b1) (hu : u.st = .b1) : d.view = u.view ↔ d.SameOpen u := by
  simp [Dec.view, valid, Dec.markKept, Dec.lenKept, Dec.SameOpen, hd, hu]

theorem Dec.view_eq_iff_of_xh {d u : Dec} (hd : d.st = .xh) (hu : u.st = .xh) :
    d.view = u.view ↔ d.SameOpen u ∧ d.mark = u.mark := by
  simp [Dec.view, valid, Dec.markKept, Dec.lenKept, Dec.SameOpen, hd, hu, and_left_comm, and_comm]

theorem Dec.view_eq_iff_of_xl {d u : Dec} (hd : d.st = .xl) (hu : u.st = .xl) :
    d.view = u.view ↔ d.SameOpen u ∧ d.mark = u.mark ∧ d.lenHi = u.lenHi := by
  simp [Dec.view, valid, Dec.markKept, Dec.lenKept, Dec.SameOpen, hd, hu, and_assoc, and_left_comm, and_comm]

theorem Dec.view_eq_iff_of_key {d u : Dec} (hd : d.st = .key) (hu : u.st = .key) :
    d.view = u.view ↔ d.SameOpen u ∧ d.SameLength u ∧ d.kidx = u.kidx ∧
      (keyBytes d.key).take d.kidx.toNat = (keyBytes u.key).take u.kidx.toNat := by
  simp [Dec.view, valid, Dec.markKept, Dec.lenKept, Dec.SameOpen, Dec.SameLength, hd, hu, and_assoc, and_left_comm, and_comm]

theorem Dec.view_eq_iff_of_pay {d u : Dec} (hd : d.st = .pay) (hu : u.st = .pay) :
    d.view = u.view ↔ d.SameOpen u ∧ d.SameLength u ∧ keyBytes d.key = keyBytes u.key ∧ d.idx = u.idx ∧
      firstBytes d.buf d.idx.toNat = firstBytes u.buf u.idx.toNat := by
  simp [Dec.view, valid, Dec.markKept, Dec.lenKept, Dec.SameOpen, Dec.SameLength, hd, hu, and_assoc, and_left_comm, and_comm]

theorem Dec.view_eq_iff_of_chk {d u : Dec} (hd : d.st = .chk) (hu : u.st = .chk) :
    d.view = u.view ↔ d.SameOpen u ∧ d.SameLength u ∧ d.idx = u.idx ∧
      firstBytes d.buf d.len.toNat = firstBytes u.buf u.len.toNat := by
  simp [Dec.view, valid, Dec.markKept, Dec.lenKept, Dec.SameOpen, Dec.SameLength, hd, hu, and_assoc, and_left_comm, and_comm]

theorem Dec.view_eq_iff_of_done {d u : Dec} (hd : d.st = .done) (hu : u.st = .done) :
    d.view = u.view ↔ d.SameOpen u ∧ d.SameLength u ∧ firstBytes d.buf d.len.toNat = firstBytes u.buf u.len.toNat := by
  simp [Dec.view, valid, Dec.markKept, Dec.lenKept, Dec.SameOpen, Dec.SameLength, hd, hu, and_assoc, and_left_comm, and_comm]

/-- An error whose code does not tell of a marker shows nothing but its code (R230). -/
theorem Dec.view_raise_congr {d u : Dec} {c : ErrCode} (h : d.SameOpen u) (hmark : c ≠ .unsupportedFrameSize)
    (htext : c ≠ .invalidEncoding) : (d.raise c).view = (u.raise c).view := by
  obtain ⟨-, hfree, hrd⟩ := h
  simp [Dec.view, valid, Dec.markKept, Dec.lenKept, hfree, hrd, hmark, htext]

/-! Every event of the decoder leads units that look alike to units that look alike. -/

theorem Dec.start_view_congr {d u : Dec} (h : d.SameOpen u) : d.start.view = u.start.view :=
  (Dec.view_eq_iff_of_b0 rfl rfl).mpr ⟨h.1, congrArg (· + 9) h.2.1, h.2.2⟩

theorem Dec.takeByte1_view_congr {d u : Dec} (b : Byte) (h : d.SameOpen u) : (d.takeByte1 b).view = (u.takeByte1 b).view := by
  unfold Dec.takeByte1
  split_ifs
  · exact (Dec.view_eq_iff_of_key rfl rfl).mpr ⟨h, ⟨rfl, rfl, rfl⟩, rfl, rfl⟩
  · exact (Dec.view_eq_iff_of_xh rfl rfl).mpr ⟨h, rfl⟩
  · obtain ⟨-, hfree, hrd⟩ := h
    simp [Dec.view, valid, Dec.markKept, Dec.lenKept, hfree, hrd]

/-- A key byte joins the key bytes before it. -/
theorem keyBytes_setKeyByte_take (key : Key) {j : Nat} (b : Byte) (h : j < 4) :
    (keyBytes (setKeyByte key j b)).take (j + 1) = (keyBytes key).take j ++ [b] := by
  have hj : j = 0 ∨ j = 1 ∨ j = 2 ∨ j = 3 := by omega
  rcases hj with rfl | rfl | rfl | rfl <;> rfl

theorem keyBytes_inj {key key' : Key} (h : keyBytes key = keyBytes key') : key = key' := by
  simp only [keyBytes, List.cons.injEq] at h
  obtain ⟨h0, h1, h2, h3, -⟩ := h
  cases key
  cases key'
  simp_all

theorem Dec.keyComplete_view_congr {d u : Dec} (hopen : d.SameOpen u) (hlen : d.SameLength u)
    (hkey : keyBytes d.key = keyBytes u.key) : d.keyComplete.view = u.keyComplete.view := by
  obtain ⟨herr, hfree, hrd⟩ := hopen
  unfold Dec.keyComplete
  rw [hlen.len_eq]
  split
  · rename_i hl
    have hempty (m m' : Memory) : firstBytes m d.len.toNat = firstBytes m' u.len.toNat := by
      rw [hlen.len_eq, hl]
      rfl
    exact (Dec.view_eq_iff_of_chk rfl rfl).mpr ⟨⟨herr, congrArg (· + 1) hfree, hrd⟩, hlen, rfl, hempty _ _⟩
  · exact (Dec.view_eq_iff_of_pay rfl rfl).mpr ⟨⟨herr, congrArg (· + 1) hfree, hrd⟩, hlen, hkey, rfl, rfl⟩

theorem Dec.takeKey_view_congr {d u : Dec} (b : Byte) (hd : d.st = .key) (hu : u.st = .key) (h : d.view = u.view) :
    (d.takeKey b).view = (u.takeKey b).view := by
  obtain ⟨hopen, hlen, hkidx, hkey⟩ := (Dec.view_eq_iff_of_key hd hu).mp h
  have hk : u.kidx.toNat < 4 := u.kidx.isLt
  rw [hkidx] at hkey
  have hset : (keyBytes (setKeyByte d.key u.kidx.toNat b)).take (u.kidx.toNat + 1) =
      (keyBytes (setKeyByte u.key u.kidx.toNat b)).take (u.kidx.toNat + 1) := by
    rw [keyBytes_setKeyByte_take _ _ hk, keyBytes_setKeyByte_take _ _ hk, hkey]
  unfold Dec.takeKey
  rw [hkidx]
  split
  · rename_i hlt
    have hsucc : (u.kidx + 1).toNat = u.kidx.toNat + 1 := by bv_omega
    refine (Dec.view_eq_iff_of_key (by exact hd) (by exact hu)).mpr ⟨hopen, hlen, rfl, ?_⟩
    rw [hsucc]
    exact hset
  · rename_i hlast
    obtain h3 : u.kidx.toNat = 3 := by omega
    rw [h3] at hset ⊢
    exact Dec.keyComplete_view_congr hopen hlen hset

theorem Dec.takePayload_view_congr {d u : Dec} (b : Byte) (hd : d.st = .pay) (hu : u.st = .pay) (h : d.view = u.view)
    (hcap : u.idx.toNat < Config.decCap) : (d.takePayload b).view = (u.takePayload b).view := by
  obtain ⟨⟨herr, hfree, hrd⟩, hlen, hkey, hidx, hbytes⟩ := (Dec.view_eq_iff_of_pay hd hu).mp h
  have hkey := keyBytes_inj hkey
  have hcap : u.idx.toNat < 65535 := hcap
  have hsucc : (u.idx + 1).toNat = u.idx.toNat + 1 := by bv_omega
  rw [hidx] at hbytes
  have hwrite : firstBytes (d.storePayload b).buf (u.idx + 1).toNat = firstBytes (u.storePayload b).buf (u.idx + 1).toNat := by
    rw [hsucc, Dec.storePayload, Dec.storePayload, hidx, hkey]
    exact firstBytes_write _ hbytes
  unfold Dec.takePayload
  rw [hidx, hlen.len_eq]
  split
  · rename_i hlast
    refine (Dec.view_eq_iff_of_chk rfl rfl).mpr ⟨⟨herr, congrArg (· + 4) hfree, hrd⟩, hlen, congrArg (· + 1) hidx, ?_⟩
    show firstBytes (d.storePayload b).buf d.len.toNat = firstBytes (u.storePayload b).buf u.len.toNat
    rw [hlen.len_eq, ← hlast]
    exact hwrite
  · refine (Dec.view_eq_iff_of_pay (d := d.storePayload b) (u := u.storePayload b) hd hu).mpr
      ⟨⟨herr, hfree, hrd⟩, hlen, congrArg keyBytes hkey, congrArg (· + 1) hidx, ?_⟩
    show firstBytes (d.storePayload b).buf (d.idx + 1).toNat = firstBytes (u.storePayload b).buf (u.idx + 1).toNat
    rw [hidx]
    exact hwrite

theorem Dec.check_view_congr {rule : Config.TextRule} {d u : Dec} (hd : d.st = .chk) (hu : u.st = .chk) (h : d.view = u.view) :
    (d.check rule).view = (u.check rule).view := by
  obtain ⟨⟨herr, hfree, hrd⟩, hlen, hidx, hbytes⟩ := (Dec.view_eq_iff_of_chk hd hu).mp h
  unfold Dec.check
  rw [Dec.payload_congr hlen.len_eq hbytes]
  split
  · exact (Dec.view_eq_iff_of_done rfl rfl).mpr ⟨⟨herr, hfree, hrd⟩, hlen, hbytes⟩
  · obtain ⟨hmark, hhi, hlo⟩ := hlen
    simp [Dec.view, valid, Dec.markKept, Dec.lenKept, hfree, hrd, hmark, hhi, hlo]

theorem Dec.takeByte_view_congr {d u : Dec} (b : Byte) (h : d.view = u.view) (hover : ¬u.Overruns (.rxByte b)) :
    (d.takeByte b).view = (u.takeByte b).view := by
  have hopen := Dec.sameOpen_of_view h
  have hst := Dec.st_eq_of_view h
  cases hd : d.st with
  | idle | chk | done | err =>
    have ha : d.st.awaiting = false := by rw [hd]; rfl
    rw [Dec.takeByte_of_not_awaiting b ha, Dec.takeByte_of_not_awaiting b (hst ▸ ha), h]
  | b0 =>
    rw [Dec.takeByte_b0 b hd, Dec.takeByte_b0 b (hst.trans hd)]
    exact (Dec.view_eq_iff_of_b1 rfl rfl).mpr hopen
  | b1 =>
    rw [Dec.takeByte_b1 b hd, Dec.takeByte_b1 b (hst.trans hd)]
    split
    · exact Dec.takeByte1_view_congr b hopen
    · exact Dec.view_raise_congr hopen nofun nofun
  | xh =>
    obtain ⟨-, hmark⟩ := (Dec.view_eq_iff_of_xh hd (hst.trans hd)).mp h
    rw [Dec.takeByte_xh b hd, Dec.takeByte_xh b (hst.trans hd)]
    exact (Dec.view_eq_iff_of_xl rfl rfl).mpr ⟨hopen, hmark, rfl⟩
  | xl =>
    obtain ⟨-, hmark, hhi⟩ := (Dec.view_eq_iff_of_xl hd (hst.trans hd)).mp h
    rw [Dec.takeByte_xl b hd, Dec.takeByte_xl b (hst.trans hd)]
    exact (Dec.view_eq_iff_of_key rfl rfl).mpr ⟨hopen, ⟨hmark, hhi, rfl⟩, rfl, rfl⟩
  | key =>
    rw [Dec.takeByte_key b hd, Dec.takeByte_key b (hst.trans hd)]
    exact Dec.takeKey_view_congr b hd (hst.trans hd) h
  | pay =>
    rw [Dec.takeByte_pay b hd, Dec.takeByte_pay b (hst.trans hd)]
    exact Dec.takePayload_view_congr b hd (hst.trans hd) h (Nat.not_le.mp fun hcap => hover ⟨hst.trans hd, hcap⟩)

/-- Whether a byte overruns the buffer is seen. -/
theorem Dec.overruns_of_view {d u : Dec} {e : DecEvent} (h : d.view = u.view) (hover : u.Overruns e) : d.Overruns e := by
  cases e with
  | rxByte b =>
    obtain ⟨hu, hcap⟩ := hover
    have hd := (Dec.st_eq_of_view h).symm.trans hu
    obtain ⟨-, -, -, hidx, -⟩ := (Dec.view_eq_iff_of_pay hd hu).mp h
    exact ⟨hd, hidx ▸ hcap⟩
  | invoke | rxFail | check => exact hover

theorem Dec.onEvent_view_congr {rule : Config.TextRule} {d u : Dec} {e : DecEvent} (h : d.view = u.view) (hover : ¬u.Overruns e) :
    (d.onEvent rule e).view = (u.onEvent rule e).view := by
  have hopen := Dec.sameOpen_of_view h
  have hst := Dec.st_eq_of_view h
  cases e with
  | rxByte b => exact Dec.takeByte_view_congr b h hover
  | invoke =>
    rw [Dec.onEvent, Dec.onEvent, hst]
    split
    · exact Dec.start_view_congr hopen
    · exact h
  | rxFail =>
    rw [Dec.onEvent, Dec.onEvent, hst]
    split
    · exact Dec.view_raise_congr hopen nofun nofun
    · exact h
  | check =>
    rw [Dec.onEvent, Dec.onEvent, hst]
    split
    · exact Dec.check_view_congr ‹_› (hst.trans ‹_›) h
    · exact h

/-- The window is the same, and so is each byte in it. -/
theorem Dec.window_of_view {d u : Dec} (i : Nat) (h : d.view = u.view) :
    d.inWindow i = u.inWindow i ∧ (u.inWindow i = true → Memory.read d.buf i = Memory.read u.buf i) := by
  have hst := Dec.st_eq_of_view h
  by_cases hd : d.st = .done
  · obtain ⟨-, hlen, hbytes⟩ := (Dec.view_eq_iff_of_done hd (hst.trans hd)).mp h
    rw [hlen.len_eq, firstBytes_eq_iff] at hbytes
    refine ⟨by rw [Dec.inWindow, Dec.inWindow, hst, hlen.len_eq], fun hin => hbytes i ?_⟩
    exact (of_decide_eq_true hin).2
  · simp [Dec.inWindow, hst, hd]

/-- A read shows a byte of the window, or the same free value. -/
theorem Dec.readByte_view_congr {d u : Dec} (i : Nat) (h : d.view = u.view) : (d.readByte i).view = (u.readByte i).view := by
  obtain ⟨-, hfree, -⟩ := Dec.sameOpen_of_view h
  obtain ⟨hwin, hbyte⟩ := Dec.window_of_view i h
  unfold Dec.readByte
  rw [hwin]
  split
  · rw [hbyte ‹_›]
    exact congrArg (fun v : DecView => { v with rd := some ((Memory.read u.buf i).getD (Config.decUnwritten i)) }) h
  · rw [hfree]
    exact congrArg (fun v : DecView => { v with rd := some (Config.decFree 8 u.free), free := u.free + 1 }) h

/-! What of the encoder is seen in each state. -/

/-- What is seen in every state beside the sequencer. -/
def Enc.SameOpen (e u : Enc) : Prop := e.err = u.err ∧ e.tot = u.tot ∧ e.free = u.free ∧ e.rd = u.rd

theorem Enc.st_eq_of_view {e u : Enc} (h : e.view = u.view) : u.st = e.st := (congrArg EncView.st h).symm

theorem Enc.sameOpen_of_view {e u : Enc} (h : e.view = u.view) : e.SameOpen u :=
  ⟨congrArg EncView.err h, congrArg EncView.tot h, congrArg EncView.free h, congrArg EncView.rd h⟩

theorem Enc.view_eq_iff_of_pay {e u : Enc} (he : e.st = .pay) (hu : u.st = .pay) :
    e.view = u.view ↔ e.SameOpen u ∧ e.n = u.n ∧ e.hlen = u.hlen ∧ e.idx = u.idx ∧
      firstBytes e.buf e.payAddr = firstBytes u.buf u.payAddr := by
  simp [Enc.view, valid, Enc.SameOpen, he, hu, and_assoc, and_left_comm, and_comm]

theorem Enc.view_eq_iff_of_done {e u : Enc} (he : e.st = .done) (hu : u.st = .done) :
    e.view = u.view ↔ e.SameOpen u ∧ e.n = u.n ∧ e.hlen = u.hlen ∧
      firstBytes e.buf e.tot.toNat = firstBytes u.buf u.tot.toNat := by
  simp [Enc.view, valid, Enc.SameOpen, he, hu, and_assoc, and_left_comm, and_comm]

/-! Every event of the encoder leads units that look alike to units that look alike. -/

/-- An invocation writes all that is seen but the code and the model's own fields. -/
theorem Enc.invoke_view_congr {e u : Enc} (max : Config.EncMax) (n : Nat) (h : e.SameOpen u) :
    (e.invoke max n).view = (u.invoke max n).view := by
  obtain ⟨herr, -, hfree, hrd⟩ := h
  unfold Enc.invoke
  split_ifs
  · simp [Enc.startShort, Enc.view, Enc.payAddr, herr, hfree, hrd]
  · simp [Enc.startExt16, Enc.view, Enc.payAddr, herr, hfree, hrd]
  · simp [Enc.view, valid, hfree, hrd]

theorem Enc.takePayload_view_congr {max : Config.EncMax} {e u : Enc} (b : Byte) (he : e.st = .pay) (hu : u.st = .pay)
    (h : e.view = u.view) (hcap : u.payAddr < Config.encCap max) : (e.takePayload b).view = (u.takePayload b).view := by
  obtain ⟨⟨herr, htot, hfree, hrd⟩, hn, hhlen, hidx, hbytes⟩ := (Enc.view_eq_iff_of_pay he hu).mp h
  obtain ⟨-, hmax⟩ := encMax_bounds max
  have haddr : e.payAddr = u.payAddr := by rw [Enc.payAddr, Enc.payAddr, hhlen, hidx]
  have hsucc : u.hlen.toNat + (u.idx + 1).toNat = u.payAddr + 1 := by
    rw [Enc.payAddr] at hcap ⊢
    rw [Config.encCap] at hcap
    bv_omega
  rw [haddr] at hbytes
  have hwrite : firstBytes (e.storePayload b).buf (u.payAddr + 1) = firstBytes (u.storePayload b).buf (u.payAddr + 1) := by
    rw [Enc.storePayload, Enc.storePayload, haddr]
    exact firstBytes_write b hbytes
  unfold Enc.takePayload
  rw [hidx, hn]
  split
  · rename_i hlast
    have htot' : (u.hlen.setWidth 17 + u.n).toNat = u.payAddr + 1 := by
      rw [tot_toNat (max := max), ← hlast, hsucc]
      rw [← hlast, hsucc]
      exact hcap
    refine (Enc.view_eq_iff_of_done rfl rfl).mpr ⟨⟨herr, ?_, hfree, hrd⟩, hn, hhlen, ?_⟩
    · show e.hlen.setWidth 17 + u.n = u.hlen.setWidth 17 + u.n
      rw [hhlen]
    · show firstBytes (e.storePayload b).buf (e.hlen.setWidth 17 + u.n).toNat =
        firstBytes (u.storePayload b).buf (u.hlen.setWidth 17 + u.n).toNat
      rw [hhlen, htot']
      exact hwrite
  · refine (Enc.view_eq_iff_of_pay (e := e.storePayload b) (u := u.storePayload b) he hu).mpr
      ⟨⟨herr, htot, hfree, hrd⟩, hn, hhlen, congrArg (· + 1) hidx, ?_⟩
    show firstBytes (e.storePayload b).buf (e.hlen.toNat + (e.idx + 1).toNat) =
      firstBytes (u.storePayload b).buf (u.hlen.toNat + (u.idx + 1).toNat)
    rw [hhlen, hidx, hsucc]
    exact hwrite

/-- Whether a byte overruns the buffer is seen. -/
theorem Enc.overruns_of_view {max : Config.EncMax} {e u : Enc} {v : EncEvent} (h : e.view = u.view) (hover : u.Overruns max v) :
    e.Overruns max v := by
  cases v with
  | plByte b =>
    obtain ⟨hu, hcap⟩ := hover
    have he := (Enc.st_eq_of_view h).symm.trans hu
    obtain ⟨-, -, hhlen, hidx, -⟩ := (Enc.view_eq_iff_of_pay he hu).mp h
    refine ⟨he, ?_⟩
    rw [Enc.payAddr, hhlen, hidx]
    exact hcap
  | invoke n => exact hover

theorem Enc.onEvent_view_congr {max : Config.EncMax} {e u : Enc} {v : EncEvent} (h : e.view = u.view) (hover : ¬u.Overruns max v) :
    (e.onEvent max v).view = (u.onEvent max v).view := by
  have hst := Enc.st_eq_of_view h
  cases v with
  | invoke n =>
    rw [Enc.onEvent, Enc.onEvent, hst]
    split
    · exact Enc.invoke_view_congr max n (Enc.sameOpen_of_view h)
    · exact h
  | plByte b =>
    rw [Enc.onEvent, Enc.onEvent, hst]
    split
    · have he : e.st = .pay := ‹_›
      exact Enc.takePayload_view_congr (max := max) b he (hst.trans he) h
        (Nat.not_le.mp fun hcap => hover ⟨hst.trans he, hcap⟩)
    · exact h

/-- The window is the same, and so is each byte in it. -/
theorem Enc.window_of_view {e u : Enc} (i : Nat) (h : e.view = u.view) :
    e.inWindow i = u.inWindow i ∧ (u.inWindow i = true → Memory.read e.buf i = Memory.read u.buf i) := by
  have hst := Enc.st_eq_of_view h
  by_cases he : e.st = .done
  · obtain ⟨⟨-, htot, -, -⟩, -, -, hbytes⟩ := (Enc.view_eq_iff_of_done he (hst.trans he)).mp h
    rw [htot, firstBytes_eq_iff] at hbytes
    refine ⟨by rw [Enc.inWindow, Enc.inWindow, hst, htot], fun hin => hbytes i ?_⟩
    exact (of_decide_eq_true hin).2
  · simp [Enc.inWindow, hst, he]

/-- A read shows a byte of the window, or the same free value. -/
theorem Enc.readByte_view_congr {e u : Enc} (i : Nat) (h : e.view = u.view) : (e.readByte i).view = (u.readByte i).view := by
  obtain ⟨-, -, hfree, -⟩ := Enc.sameOpen_of_view h
  obtain ⟨hwin, hbyte⟩ := Enc.window_of_view i h
  unfold Enc.readByte
  rw [hwin]
  split
  · rw [hbyte ‹_›]
    exact congrArg (fun v : EncView => { v with rd := some ((Memory.read u.buf i).getD (Config.encUnwritten i)) }) h
  · rw [hfree]
    exact congrArg (fun v : EncView => { v with rd := some (Config.encFree 8 u.free), free := u.free + 1 }) h

/-- Settles O57: events and reads, unit by unit. -/
theorem nothingOutsideAWindowIsRead : Obligations.NothingOutsideAWindowIsRead := by
  refine ⟨fun e s u s' h hpar hs => ?_, fun e s u s' h hpar hs => ?_, fun i s u s' h hs => ?_, fun i s u s' h hs => ?_⟩
  · obtain ⟨hover, rfl⟩ := deliver_dec_iff.mp hs
    have hover' : ¬u.dec.Overruns e := fun ho => hover (Dec.overruns_of_view h ho)
    refine ⟨_, deliver_dec_iff.mpr ⟨hover', rfl⟩, ?_⟩
    rw [withDec_dec, withDec_dec, hpar]
    exact Dec.onEvent_view_congr h hover'
  · obtain ⟨hover, rfl⟩ := deliver_enc_iff.mp hs
    rw [hpar] at hover
    have hover' : ¬u.enc.Overruns u.par.encMax e := fun ho => hover (Enc.overruns_of_view h ho)
    refine ⟨_, deliver_enc_iff.mpr ⟨hover', rfl⟩, ?_⟩
    rw [withEnc_enc, withEnc_enc, hpar]
    exact Enc.onEvent_view_congr h hover'
  · cases hs
    exact ⟨_, rfl, Dec.readByte_view_congr i.toNat h⟩
  · cases hs
    exact ⟨_, rfl, Enc.readByte_view_congr i.toNat h⟩

end Sys2Proof.Machine
end
